-- ==== Sys2Proof/Word.lean ====
section
/-! DEFINITION. The word types of HTCORE (`spec/00_scope.md` R8): a byte of a channel, a 32-bit word, a key. -/

namespace Sys2Proof

/-- One byte of the command or response channel (`spec/30_encoding.md` R90). -/
abbrev Byte := BitVec 8

/-- The 32-bit quantities: CT words, hashes, sizes, indices, values, header and argument words
(`spec/00_scope.md` R6, R7). -/
abbrev Word := BitVec 32

/-- A table id, TID_W = 8 bits (`spec/00_scope.md` R7, `spec/30_encoding.md` R99). -/
abbrev TableId := BitVec 8

/-- A key: a finite byte string (`spec/41_hash.md` R150); the terminating zero byte is not part of it
(`spec/00_scope.md` R10). That no byte of it is zero is checked in `WellFormed.lean`. -/
abbrev Key := List Byte

end Sys2Proof
end

