-- ==== Sys2Proof/Syntax.lean ====
section
/-! DEFINITION. The nine commands of HTCORE (`spec/30_encoding.md` R96), one constructor for each row of
`spec/opcode_table.json`, with their operands (R97 to R100). -/

namespace Sys2Proof

/-- The hash channels {ID, A, B} (`spec/41_hash.md` R150, `spec/30_encoding.md` R97). -/
inductive Channel where
  | id | a | b
deriving DecidableEq, Repr

/-- A command (`spec/30_encoding.md` R92, R96). -/
inductive Instr where
  /-- `generate`: fill CT once (R131). -/
  | generate
  /-- `hash ch, key`: one channel's hash of a key (R157). -/
  | hash (ch : Channel) (key : Key)
  /-- `create t, size` (R172). -/
  | create (tid : TableId) (size : Word)
  /-- `put t, key, value` (R177). -/
  | put (tid : TableId) (value : Word) (key : Key)
  /-- `get t, key` (R185). -/
  | get (tid : TableId) (key : Key)
  /-- `getindex t, idx` (R188). -/
  | getindex (tid : TableId) (idx : Word)
  /-- `del t, key` (R191). -/
  | del (tid : TableId) (key : Key)
  /-- `len t` (R195). -/
  | len (tid : TableId)
  /-- `release t[, cb]` (R200). -/
  | release (tid : TableId) (cb : Bool)
deriving DecidableEq, Repr

/-- The part of a command that its header word carries (`spec/30_encoding.md` R93). -/
inductive Header where
  | generate
  | hash (ch : Channel)
  | create (tid : TableId)
  | put (tid : TableId)
  | get (tid : TableId)
  | getindex (tid : TableId)
  | del (tid : TableId)
  | len (tid : TableId)
  | release (tid : TableId) (cb : Bool)
deriving DecidableEq, Repr

end Sys2Proof
end

