-- ==== Sys2Proof/WellFormed.lean ====
section
/-! DEFINITION. Which terms of `Instr` a packet can carry. The only condition the types leave open is that a key holds
no zero byte (`spec/30_encoding.md` R95); every value of the other operands is an encodable one. -/

namespace Sys2Proof

/-- A key cannot contain a zero byte (`spec/30_encoding.md` R95); the empty key is legal. -/
def keyWf (key : Key) : Bool := key.all fun ch => ch != 0#8

/-- The well-formed commands. -/
def Instr.wf : Instr → Bool
  | .generate => true
  | .hash _ key => keyWf key
  | .create _ _ => true
  | .put _ _ key => keyWf key
  | .get _ key => keyWf key
  | .getindex _ _ => true
  | .del _ key => keyWf key
  | .len _ => true
  | .release _ _ => true

end Sys2Proof
end

