-- ==== Sys2Proof/Decode.lean ====
section
/-! DEFINITION. Command packets (`spec/30_encoding.md` R90 to R102): words as bytes, the header's fields, the decoder
(total on any byte string, rejecting an illegal header by name) and the encoder. -/

namespace Sys2Proof

/-! ## Words as bytes (R91) -/

/-- The four bytes of a word in channel order, least significant first (R91). -/
def bytesOfWord (w : Word) : List Byte :=
  [w.extractLsb' 0 8, w.extractLsb' 8 8, w.extractLsb' 16 8, w.extractLsb' 24 8]

/-- The word whose bytes arrive in the order `b0`, `b1`, `b2`, `b3` (R91). -/
def wordOfBytes (b0 b1 b2 b3 : Byte) : Word := b3 ++ b2 ++ b1 ++ b0

/-- `w` with its byte number `k` replaced by `b`: what a word register holds after receiving its k-th byte (R91). -/
def setByte (w : Word) (k : BitVec 2) (b : Byte) : Word :=
  match k.toNat with
  | 0 => w.extractLsb' 8 24 ++ b
  | 1 => w.extractLsb' 16 16 ++ b ++ w.extractLsb' 0 8
  | 2 => w.extractLsb' 24 8 ++ b ++ w.extractLsb' 0 16
  | _ => b ++ w.extractLsb' 0 24

/-! ## Header fields (R93) -/

/-- `op`, bits [3:0]. -/
def fieldOp (h : Word) : BitVec 4 := h.extractLsb' 0 4
/-- `ch`, bits [6:4]. -/
def fieldCh (h : Word) : BitVec 3 := h.extractLsb' 4 3
/-- `cb`, bit [7]. -/
def fieldCb (h : Word) : BitVec 1 := h.extractLsb' 7 1
/-- `tid`, bits [15:8]. -/
def fieldTid (h : Word) : TableId := h.extractLsb' 8 8
/-- The reserved bits [31:16]. -/
def fieldReserved (h : Word) : BitVec 16 := h.extractLsb' 16 16

/-- A header word from its fields, the reserved bits zero (R93). -/
def headerOfFields (op : BitVec 4) (ch : BitVec 3) (cb : BitVec 1) (tid : TableId) : Word :=
  0#16 ++ tid ++ cb ++ ch ++ op

/-- The channel numbers of R97. -/
def channelCode : Channel → BitVec 3
  | .id => 0
  | .a => 1
  | .b => 2

/-- R97 read backwards; the values 3 to 7 are reserved. -/
def channelOfCode (c : BitVec 3) : Option Channel :=
  match c.toNat with
  | 0 => some .id
  | 1 => some .a
  | 2 => some .b
  | _ => none

/-- Why a header word is illegal (R101), by name. Every one of them raises FC_ILLEGAL (`spec/60_exceptions.md` R249). -/
inductive IllegalHeader where
  /-- `op` is 0 or 10..15. -/
  | reservedOpcode
  /-- `H[31:16] ≠ 0`. -/
  | reservedBits
  /-- `ch ≠ 0` and the command is not HASH. -/
  | strayChannel
  /-- HASH with `ch` 3..7. -/
  | reservedChannel
  /-- `cb ≠ 0` and the command is not RELEASE. -/
  | strayCallback
  /-- `tid ≠ 0` and the command is GENERATE or HASH. -/
  | strayTable
deriving DecidableEq, Repr

/-- The must-be-zero fields of R93: a field that the command does not use is zero, or the header is illegal. -/
def checkUnused (h : Word) (usesCh usesCb usesTid : Bool) (r : Header) : Except IllegalHeader Header :=
  if !usesCh && fieldCh h != 0 then .error .strayChannel
  else if !usesCb && fieldCb h != 0 then .error .strayCallback
  else if !usesTid && fieldTid h != 0 then .error .strayTable
  else .ok r

/-- The opcode map of R96 with the reserved encodings of R101. -/
def decodeHeader (h : Word) : Except IllegalHeader Header :=
  if fieldReserved h != 0 then .error .reservedBits
  else
    match (fieldOp h).toNat with
    | 1 => checkUnused h false false false .generate
    | 2 =>
      match channelOfCode (fieldCh h) with
      | some c => checkUnused h true false false (.hash c)
      | none => .error .reservedChannel
    | 3 => checkUnused h false false true (.create (fieldTid h))
    | 4 => checkUnused h false false true (.put (fieldTid h))
    | 5 => checkUnused h false false true (.get (fieldTid h))
    | 6 => checkUnused h false false true (.getindex (fieldTid h))
    | 7 => checkUnused h false false true (.del (fieldTid h))
    | 8 => checkUnused h false false true (.len (fieldTid h))
    | 9 => checkUnused h false true true (.release (fieldTid h) (fieldCb h == 1))
    | _ => .error .reservedOpcode

/-! ## Packets (R92, R94, R95) -/

/-- The first word of a byte string and what follows it. -/
def takeWord : List Byte → Option (Word × List Byte)
  | b0 :: b1 :: b2 :: b3 :: rest => some (wordOfBytes b0 b1 b2 b3, rest)
  | _ => none

/-- The key at the head of a byte string, its terminating zero byte consumed (R95); none if no zero byte is there. -/
def takeKey : List Byte → Option (Key × List Byte)
  | [] => none
  | b :: rest =>
    if b = 0#8 then some ([], rest)
    else (takeKey rest).map fun kr => (b :: kr.1, kr.2)

/-- What a decoder finds at the head of the command channel. -/
inductive Fetched where
  /-- A whole packet, and the bytes after it. -/
  | packet (i : Instr) (rest : List Byte)
  /-- An illegal header word, the reason, and the bytes after its fourth byte (R101). -/
  | illegal (h : Word) (why : IllegalHeader) (rest : List Byte)
  /-- Less than one packet: more bytes must arrive. -/
  | incomplete
deriving DecidableEq, Repr

/-- A packet part that must be there: its absence means that the packet is not complete. -/
def needPart {α : Type} (part : Option (α × List Byte)) (k : α → List Byte → Fetched) : Fetched :=
  match part with
  | some (x, rest) => k x rest
  | none => .incomplete

/-- The parts that follow a legal header (R94). -/
def decodeBody (h : Header) (rest : List Byte) : Fetched :=
  match h with
  | .generate => .packet .generate rest
  | .hash ch => needPart (takeKey rest) fun key rest => .packet (.hash ch key) rest
  | .create tid => needPart (takeWord rest) fun size rest => .packet (.create tid size) rest
  | .put tid =>
    needPart (takeWord rest) fun value rest => needPart (takeKey rest) fun key rest => .packet (.put tid value key) rest
  | .get tid => needPart (takeKey rest) fun key rest => .packet (.get tid key) rest
  | .getindex tid => needPart (takeWord rest) fun idx rest => .packet (.getindex tid idx) rest
  | .del tid => needPart (takeKey rest) fun key rest => .packet (.del tid key) rest
  | .len tid => .packet (.len tid) rest
  | .release tid cb => .packet (.release tid cb) rest

/-- The decoder: total on any byte string (R92, R94, R101). -/
def decodePacket (bytes : List Byte) : Fetched :=
  needPart (takeWord bytes) fun h rest =>
    match decodeHeader h with
    | .ok hd => decodeBody hd rest
    | .error why => .illegal h why rest

/-! ## The encoder (R92 to R96) -/

/-- The header of a command. -/
def headerOf : Instr → Header
  | .generate => .generate
  | .hash ch _ => .hash ch
  | .create tid _ => .create tid
  | .put tid _ _ => .put tid
  | .get tid _ => .get tid
  | .getindex tid _ => .getindex tid
  | .del tid _ => .del tid
  | .len tid => .len tid
  | .release tid _cb => .release tid _cb

/-- The header word of a command (R93, R96). -/
def encodeHeader : Header → Word
  | .generate => headerOfFields 1 0 0 0
  | .hash ch => headerOfFields 2 (channelCode ch) 0 0
  | .create tid => headerOfFields 3 0 0 tid
  | .put tid => headerOfFields 4 0 0 tid
  | .get tid => headerOfFields 5 0 0 tid
  | .getindex tid => headerOfFields 6 0 0 tid
  | .del tid => headerOfFields 7 0 0 tid
  | .len tid => headerOfFields 8 0 0 tid
  | .release tid cb => headerOfFields 9 0 (BitVec.ofBool cb) tid

/-- A key and its terminator (R95). -/
def encodeKey (key : Key) : List Byte := key ++ [0#8]

/-- The argument word and the key of a command, as its packet carries them (R94). -/
def encodeBody : Instr → List Byte
  | .generate => []
  | .hash _ key => encodeKey key
  | .create _ size => bytesOfWord size
  | .put _ value key => bytesOfWord value ++ encodeKey key
  | .get _ key => encodeKey key
  | .getindex _ idx => bytesOfWord idx
  | .del _ key => encodeKey key
  | .len _ => []
  | .release _ _ => []

/-- The packet of a command, in channel order (R92). -/
def encode (i : Instr) : List Byte := bytesOfWord (encodeHeader (headerOf i)) ++ encodeBody i

/-! ## Which parts a packet has (R94) -/

/-- The commands with an argument word (R94). -/
def Header.hasArg : Header → Bool
  | .generate => false
  | .hash _ => false
  | .create _ => true
  | .put _ => true
  | .get _ => false
  | .getindex _ => true
  | .del _ => false
  | .len _ => false
  | .release _ _ => false

/-- The commands with a key (R94). -/
def Header.hasKey : Header → Bool
  | .generate => false
  | .hash _ => true
  | .create _ => false
  | .put _ => true
  | .get _ => true
  | .getindex _ => false
  | .del _ => true
  | .len _ => false
  | .release _ _ => false

/-- The table a command names. -/
def Instr.table? : Instr → Option TableId
  | .generate => none
  | .hash _ _ => none
  | .create tid _ => some tid
  | .put tid _ _ => some tid
  | .get tid _ => some tid
  | .getindex tid _ => some tid
  | .del tid _ => some tid
  | .len tid => some tid
  | .release tid _ => some tid

/-! ## The opcode table's words -/

/-- The bytes of the `n` low bytes of `w`, first byte first. -/
def bytesOfTableWord : Nat → Nat → List Byte
  | 0, _ => []
  | n + 1, w => BitVec.ofNat 8 w :: bytesOfTableWord n (w / 256)

/-- An instruction of the opcode table as it stands on the command channel: its `nbits` bits of `w`, then the parts the
table gives no bits (an argument word and a key's terminator, five bytes at most) as zero bytes. -/
def tablePacket (nbits w : Nat) : List Byte := bytesOfTableWord (nbits / 8) w ++ List.replicate 5 0#8

/-- The instruction the decoder reads from the opcode table's word `w` of `nbits` bits; none where it rejects it. -/
def decodeTableWord (nbits w : Nat) : Option Instr :=
  match decodePacket (tablePacket nbits w) with
  | .packet i _ => some i
  | .illegal _ _ _ => none
  | .incomplete => none

end Sys2Proof
end

