-- ==== Sys2Proof/Config.lean ====
section
/-! DEFINITION. What is fixed for one machine: the constants of `spec/00_scope.md` R6, the open parameters of R7 as
one record, and the free values (opaque constants without a body) that stand for what the spec leaves open. -/

namespace Sys2Proof.Config

/-- CT_WORDS (`spec/00_scope.md` R6). -/
def ctWords : Nat := 1280
/-- Words in one CT bank (`spec/20_memory.md` R62). -/
def bankWords : Nat := 256
/-- LCG_SEED0 (`spec/00_scope.md` R6). -/
def lcgSeed0 : Nat := 0x00100001
/-- LCG_MUL. -/
def lcgMul : Nat := 125
/-- LCG_ADD. -/
def lcgAdd : Nat := 3
/-- LCG_MOD. -/
def lcgMod : Nat := 0x2AAAAB
/-- HASH_SEED1_0 (`spec/41_hash.md` R151). -/
def hashSeed1 : Word := 0x7FED7FED#32
/-- HASH_SEED2_0 (`spec/41_hash.md` R151). -/
def hashSeed2 : Word := 0xEEEEEEEE#32
/-- LEN's error sentinel (`spec/30_encoding.md` R112, `spec/92_eei_decisions.md` D16). -/
def lenSentinel : Word := 0xFFFFFFFF#32

/-- The largest NTAB (`spec/00_scope.md` R7). -/
def maxNtab : Nat := 256
/-- One more than the largest SLOT_DEPTH, 2^31 (`spec/00_scope.md` R7). -/
def slotDepthLimit : Nat := 2 ^ 31

/-- The open parameters of `spec/00_scope.md` R7 (NTAB, SLOT_DEPTH) and the named alternative CT_HARDWIRED of
`spec/40_crypttable.md` R139. A machine is built with one value of this record; no step changes it. -/
structure Params where
  ntab : Nat
  slotDepth : Nat
  ctHardwired : Bool
deriving DecidableEq, Repr

/-- The ranges of `spec/00_scope.md` R7. -/
abbrev Params.legal (p : Params) : Prop :=
  1 ≤ p.ntab ∧ p.ntab ≤ maxNtab ∧ 1 ≤ p.slotDepth ∧ p.slotDepth < slotDepthLimit

/-- The parameters `State.reset` is built with: those of the worked examples of `spec/95_test_vectors.md`
(NTAB = 2, SLOT_DEPTH = 16) and the decided CT_HARDWIRED = false. DESIGN CHOICE, unsafe: log entry 1. -/
def workedParams : Params := ⟨2, 16, false⟩

/-- What a CT word that nothing has written reads as. The spec leaves it unspecified and no rule reads it
(`spec/10_state.md` R37, R39). DESIGN CHOICE, unsafe: log entry 3. -/
def ctUnwritten : Word := 0#32

/-- RELEASE_ORDER (`spec/42_hashtable.md` R201): the free choice behind the order of RELEASE's value words. The first
argument is the state's counter of free choices, the second says which pick of that RELEASE it is. Log entry 4. -/
opaque releasePick : Nat → Nat → Nat

/-- SIZE[t] after RELEASE, unspecified (`spec/42_hashtable.md` R202). Free value, log entry 5. -/
opaque releasedSize : Nat → Nat → Word

/-- LEN[t] after RELEASE, unspecified (`spec/42_hashtable.md` R202). Free value, log entry 5. -/
opaque releasedLen : Nat → Nat → Word

/-- The occupied records of SLOT[t] after RELEASE as (index, hashA, hashB, value), unspecified
(`spec/42_hashtable.md` R202). Free value, log entry 5. -/
opaque releasedSlots : Nat → Nat → List (Nat × Word × Word × Word)

end Sys2Proof.Config
end

