-- ==== Sys2Proof/Machine/Constant.lean ====
section
/-! DEFINITION. The LCG (`spec/40_crypttable.md` R132, R133) and the constant CT holds after generation, in the closed
form of R134. The command GENERATE does not use the closed form: it runs the loop of R131 (`CryptTable.lean`). -/

namespace Sys2Proof.Machine

/-- One LCG step in exact arithmetic (R132): LSEED is 22 bits wide and the remainder always fits (R133). -/
def lcgStep (seed : BitVec 22) : BitVec 22 :=
  BitVec.ofNat 22 ((seed.toNat * Config.lcgMul + Config.lcgAdd) % Config.lcgMod)

/-- A CT word from the two steps of a pass: the first gives the high half, the second the low half (R131,
`spec/20_memory.md` R67). -/
def ctWordOfSteps (hi lo : BitVec 22) : Word := hi.extractLsb' 0 16 ++ lo.extractLsb' 0 16

/-- The LCG sequence `s(n)` of R134. -/
def lcgSeq : Nat → BitVec 22
  | 0 => BitVec.ofNat 22 Config.lcgSeed0
  | n + 1 => lcgStep (lcgSeq n)

/-- The word at index `n` of the generated table, the closed form of R134 with `n = i + 256*p`. -/
def ctConstantWord (n : Nat) : Word :=
  let i := n % Config.bankWords
  let p := n / Config.bankWords
  ctWordOfSteps (lcgSeq (10 * i + 2 * p + 1)) (lcgSeq (10 * i + 2 * p + 2))

/-- The generated table as a memory, ascending index: what a mask ROM holds (R139). A word equal to what an unlisted index
reads as is not listed, which is the canonical form of `Memory.ctWf`. -/
def ctConstant : List (Nat × Word) :=
  ((List.range Config.ctWords).map fun n => (n, ctConstantWord n)).filter fun c => c.2 != Config.ctUnwritten

end Sys2Proof.Machine
end

