-- ==== Sys2Proof/Machine/State.lean ====
section
/-! DEFINITION. The state of HTCORE as plain data: the architectural state of `spec/10_state.md` R20, the working
registers of R23, the controller's phase of `spec/43_controller.md` R225, and the two byte channels of
`spec/30_encoding.md` R90; the state after reset (R44); and the ways a step can stop. -/

namespace Sys2Proof.Machine

/-! ## Memories -/

/-- An element-indexed memory (`spec/20_memory.md` R60) as a list of (index, element) pairs. An index that is not
listed reads as `Config.ctUnwritten` in CT and as the empty slot in SLOT[t]. -/
abbrev Memory (α : Type) := List (Nat × α)

/-- The canonical form: indices strictly rising. -/
abbrev Memory.wf {α : Type} (m : Memory α) : Prop := (m.map Prod.fst).Pairwise (· < ·)

/-- CT's canonical form: indices strictly rising and no entry equal to what an unlisted index reads as. (In SLOT[t]
no entry can be: the entries are buckets and an unlisted index is the empty slot.) -/
abbrev Memory.ctWf (m : Memory Word) : Prop := Memory.wf m ∧ ∀ c ∈ m, c.2 ≠ Config.ctUnwritten

/-- The occupied slot record (`spec/10_state.md` R36): `occ = 1` with its three fields. The empty record `occ = 0`,
whose other fields have no meaning (R28, R36), is the absence of a bucket. -/
structure Bucket where
  hashA : Word
  hashB : Word
  value : Word
deriving DecidableEq, Repr

/-- One table context (`spec/10_state.md` R26, R32, R33, R36): VALID[t], SIZE[t], LEN[t] and SLOT[t]. -/
structure Context where
  valid : Bool
  size : Word
  len : Word
  slots : Memory Bucket
deriving DecidableEq, Repr

/-- A context after reset: VALID[t] = 0 (R26); SIZE[t], LEN[t] and SLOT[t] are unspecified there (R44) and stand at
zero and empty. DESIGN CHOICE, unsafe: log entry 2. -/
def Context.reset : Context := ⟨false, 0#32, 0#32, []⟩

/-! ## Working registers (`spec/10_state.md` R23) -/

/-- LSEED (22 bits), I1 (8 bits) and PASS (3 bits), the registers of the generation loop. -/
structure GenRegs where
  lseed : BitVec 22
  i1 : BitVec 8
  pass : BitVec 3
deriving DecidableEq, Repr

/-- One hash lane: S1[c] and S2[c]. -/
structure Lane where
  s1 : Word
  s2 : Word
deriving DecidableEq, Repr

/-- The three hash lanes c = 0 (ID), 1 (A), 2 (B) (`spec/41_hash.md` R155). -/
structure Lanes where
  id : Lane
  a : Lane
  b : Lane
deriving DecidableEq, Repr

/-- START, POS and CNT, the registers of a probe. -/
structure Cursor where
  start : Word
  pos : Word
  cnt : Word
deriving DecidableEq, Repr

/-! ## The controller and the responses -/

/-- The phases of `spec/43_controller.md` R225. -/
inductive Phase where
  | idle | recvH | recvA | gen | key | clear | probe | rel | resp | dead
deriving DecidableEq, Repr

/-- The status names of `spec/30_encoding.md` R111; codes 6..15 are never produced. -/
inductive Status where
  | ok | notFound | capacityExhausted | invalidIndex | badTable | fault
deriving DecidableEq, Repr

/-- The causes of the fatal fault (`spec/60_exceptions.md` R245). -/
inductive Cause where
  /-- FC_SIZE -/
  | size
  /-- FC_DEPTH -/
  | depth
  /-- FC_BAD_TABLE -/
  | badTable
  /-- FC_TABLE_LIVE -/
  | tableLive
  /-- FC_NOT_GENERATED -/
  | notGenerated
  /-- FC_ILLEGAL -/
  | illegal
deriving DecidableEq, Repr

/-- A response (`spec/30_encoding.md` R110): status, result word, and the value words a RELEASE appends. -/
structure Response where
  status : Status
  result : Word
  values : List Word
deriving DecidableEq, Repr

/-! ## The state -/

/-- Everything the spec gives the machine, and the two channels that connect it to its host. -/
structure State where
  /-- SLOT_DEPTH, a parameter of the instance (`spec/00_scope.md` R7); no step writes it. NTAB, the other one, is the
  number of contexts in `tables`. -/
  slotDepth : Nat
  /-- CT_HARDWIRED, the named alternative of `spec/40_crypttable.md` R139; no step writes it (log entry 18). -/
  ctHardwired : Bool
  /-- GEN_DONE (R25). -/
  genDone : Bool
  /-- CT, 1280 words of 32 bits (R37). -/
  ct : Memory Word
  /-- FAULT (R27). -/
  fault : Bool
  /-- FCAUSE, 4 bits (R34). -/
  fcause : BitVec 4
  /-- The table contexts t = 0 .. NTAB−1 (R20). -/
  tables : List Context
  /-- LSEED, I1, PASS (R23). -/
  gen : GenRegs
  /-- S1[c], S2[c] (R23). -/
  lanes : Lanes
  /-- START, POS, CNT (R23). -/
  cur : Cursor
  /-- OPC, the header word being executed (R23). -/
  opc : Word
  /-- ARG, the argument word (R23). -/
  arg : Word
  /-- The controller's phase (`spec/43_controller.md` R225). -/
  phase : Phase
  /-- How many bytes of the word being received have arrived (implied by RECV_H and RECV_A of R225). -/
  rx : BitVec 2
  /-- The values RELEASE has queued for its response (`spec/43_controller.md` R231). -/
  vals : List Word
  /-- The response bytes not yet taken by the host (phase RESP of R225). -/
  tx : List Byte
  /-- The command channel: bytes the host has lined up and the block has not yet accepted (`spec/30_encoding.md` R90). -/
  cmd : List Byte
  /-- The response channel: every byte the block has sent since reset, oldest first (`spec/30_encoding.md` R90). -/
  rsp : List Byte
  /-- The model's own counter of free choices (log entries 4 and 5): which value of the free constants of `Config` is
  used next. -/
  choices : Nat
deriving DecidableEq, Repr

/-- The state after reset of a machine built with the parameters `p` (`spec/10_state.md` R44, `spec/70_reset_and_hazards.md`
R280; with CT_HARDWIRED the one change of `spec/40_crypttable.md` R139). What R44 calls unspecified stands at zero, empty:
DESIGN CHOICE, unsafe, log entries 2 and 3. -/
def State.resetWith (p : Config.Params) : State where
  slotDepth := p.slotDepth
  ctHardwired := p.ctHardwired
  genDone := p.ctHardwired
  ct := if p.ctHardwired then ctConstant else []
  fault := false
  fcause := 0#4
  tables := List.replicate p.ntab Context.reset
  gen := ⟨0#22, 0#8, 0#3⟩
  lanes := ⟨⟨0#32, 0#32⟩, ⟨0#32, 0#32⟩, ⟨0#32, 0#32⟩⟩
  cur := ⟨0#32, 0#32, 0#32⟩
  opc := 0#32
  arg := 0#32
  phase := .idle
  rx := 0#2
  vals := []
  tx := []
  cmd := []
  rsp := []
  choices := 0

/-- The machine right after reset, with the parameters of the worked examples (log entry 1). -/
def State.reset : State := State.resetWith Config.workedParams

/-! ## How a step can stop -/

/-- Why the machine takes no step. -/
inductive Fault where
  /-- FAULT = 1: the block is dead until reset and has no step (`spec/60_exceptions.md` R251, `spec/93_implementation_defined.md`
  V8 `stuck`; log entry 12). Raised by `step` and by every command's meaning in such a state. Safe: the spec itself gives no step there. -/
  | dead
deriving DecidableEq, Repr

/-- Why an instruction has no meaning. -/
inductive Refusal where
  /-- An instruction that `exec` rejects by name because this model does not give it a meaning. Raised by no arm: every
  command of the table has its meaning. Safe: nothing can be proved about a refused command's effect. -/
  | notModelled (mnemonic : String)
deriving DecidableEq, Repr

end Sys2Proof.Machine
end

