-- ==== Sys2Proof/Machine/Ops.lean ====
section
/-! DEFINITION. The named operations over memories, table contexts, hash lanes, the probe cursor and the response
channel (`spec/00_scope.md` R10), and taking the fatal fault as one shared operation (`spec/60_exceptions.md` R250). -/

namespace Sys2Proof.Machine

/-! ## Element-indexed memories (`spec/20_memory.md` R60, R69) -/

/-- The element listed at index `i`. -/
def Memory.lookup {α : Type} : List (Nat × α) → Nat → Option α
  | [], _ => none
  | (k, v) :: m, i => if k = i then some v else Memory.lookup m i

/-- List `v` at index `i`, indices staying in rising order. -/
def Memory.insert {α : Type} : List (Nat × α) → Nat → α → List (Nat × α)
  | [], i, v => [(i, v)]
  | (k, x) :: m, i, v =>
    if i < k then (i, v) :: (k, x) :: m
    else if i = k then (i, v) :: m
    else (k, x) :: Memory.insert m i v

/-- Drop what is listed at index `i`. -/
def Memory.erase {α : Type} (m : Memory α) (i : Nat) : Memory α := m.filter fun c => c.1 != i

/-- Drop what is listed below index `n`. -/
def Memory.clearBelow {α : Type} (m : Memory α) (n : Nat) : Memory α := m.filter fun c => n ≤ c.1

/-- A memory in canonical form from any list of pairs; a later pair overwrites an earlier one. -/
def Memory.ofList {α : Type} (l : List (Nat × α)) : Memory α := l.foldl (fun m c => Memory.insert m c.1 c.2) []

/-- `MemRead(CT, i)` (`spec/00_scope.md` R10). -/
def ctRead (ct : Memory Word) (i : Nat) : Word := (Memory.lookup ct i).getD Config.ctUnwritten

/-- `MemWrite(CT, i, v)` (`spec/00_scope.md` R10); the canonical form is kept. -/
def ctWrite (ct : Memory Word) (i : Nat) (v : Word) : Memory Word :=
  if v = Config.ctUnwritten then Memory.erase ct i else Memory.insert ct i v

/-- `MemRead(SLOT[t], i)`: the record at index `i`, none being `occ = 0` (`spec/00_scope.md` R10, `spec/10_state.md` R36). -/
def slotRead (slots : Memory Bucket) (i : Nat) : Option Bucket := Memory.lookup slots i

/-- `MemWrite(SLOT[t], i, rec)`. -/
def slotWrite (slots : Memory Bucket) (i : Nat) (rec : Option Bucket) : Memory Bucket :=
  match rec with
  | none => Memory.erase slots i
  | some b => Memory.insert slots i b

/-! ## Table contexts -/

/-- NTAB, the number of contexts the block holds (`spec/00_scope.md` R7). -/
def State.ntab (s : State) : Nat := s.tables.length

/-- The context of table id `tid`; every use of one with `tid ≥ NTAB` is ruled out by an earlier check
(`spec/42_hashtable.md` R170). -/
def State.table (s : State) (tid : TableId) : Context := s.tables.getD tid.toNat Context.reset

/-- Replace the context of table id `tid`. -/
def State.setTable (s : State) (tid : TableId) (c : Context) : State :=
  { s with tables := s.tables.set tid.toNat c }

/-! ## Loading the working registers (`spec/10_state.md` R23) -/

/-- OPC takes the header word of the command. -/
def State.loadHeader (s : State) (h : Header) : State := { s with opc := encodeHeader h }

/-- The argument word enters ARG whole (`spec/30_encoding.md` R98). -/
def State.loadArg (s : State) (a : Word) : State := { s with arg := a }

/-- S1[c] and S2[c] of the three lanes. -/
def State.loadLanes (s : State) (l : Lanes) : State := { s with lanes := l }

/-- START, POS and CNT. -/
def State.loadCursor (s : State) (c : Cursor) : State := { s with cur := c }

/-- POS alone. -/
def State.loadPos (s : State) (pos : Word) : State := { s with cur := { s.cur with pos := pos } }

/-- The values RELEASE has queued. -/
def State.loadVals (s : State) (vals : List Word) : State := { s with vals := vals }

/-- LSEED, I1, PASS and the CT they have written. -/
def State.loadGen (s : State) (x : GenRegs × Memory Word) : State := { s with gen := x.1, ct := x.2 }

/-- The controller enters a phase. -/
def State.enter (s : State) (p : Phase) : State := { s with phase := p }

/-! ## Hash lanes (`spec/41_hash.md`) -/

/-- The CT index a lane forms from a key byte, `(c << 8) | ch` (`spec/20_memory.md` R61). -/
def ctIndex (c : Channel) (ch : Byte) : Nat := ((channelCode c).toNat <<< 8) ||| ch.toNat

/-- A lane at the start of every hash (R151). -/
def laneInit : Lane := ⟨Config.hashSeed1, Config.hashSeed2⟩

/-- The step of R152 in lane `c`: the second assignment uses the new S1 and the old S2. -/
def laneStep (ct : Memory Word) (c : Channel) (l : Lane) (ch : Byte) : Lane :=
  let w := ctRead ct (ctIndex c ch)
  let s1 := w ^^^ (l.s1 + l.s2)
  let s2 := ch.setWidth 32 + s1 + l.s2 + (l.s2 <<< 5) + 3#32
  ⟨s1, s2⟩

/-- A lane after every byte of a key, in string order (R152). -/
def laneRun (ct : Memory Word) (c : Channel) (key : Key) : Lane := key.foldl (laneStep ct c) laneInit

/-- `hash(key, c)` of R150, R153: S1 after the loop. -/
def keyHash (ct : Memory Word) (c : Channel) (key : Key) : Word := (laneRun ct c key).s1

/-- Lane `c` of the three. -/
def Lanes.get (l : Lanes) : Channel → Lane
  | .id => l.id
  | .a => l.a
  | .b => l.b

/-- Replace lane `c`. -/
def Lanes.set (l : Lanes) (c : Channel) (x : Lane) : Lanes :=
  match c with
  | .id => { l with id := x }
  | .a => { l with a := x }
  | .b => { l with b := x }

/-- The three lanes at the start of a hash (R151, R155). -/
def lanesInit : Lanes := ⟨laneInit, laneInit, laneInit⟩

/-- One key byte in all three lanes (R155). -/
def lanesStep (ct : Memory Word) (l : Lanes) (ch : Byte) : Lanes :=
  ⟨laneStep ct .id l.id ch, laneStep ct .a l.a ch, laneStep ct .b l.b ch⟩

/-- The three lanes after one pass over the key (R155, `spec/42_hashtable.md` R175). -/
def lanesRun (ct : Memory Word) (key : Key) : Lanes := key.foldl (lanesStep ct) lanesInit

/-! ## The probe (`spec/42_hashtable.md` R176, `spec/43_controller.md` R230) -/

/-- START, POS and CNT on entry: START = idHash mod SIZE[t], the unsigned remainder. (With SIZE[t] = 0, which no reachable
live table has, it is idHash itself: DESIGN CHOICE, log entry 14.) -/
def cursorStart (idHash size : Word) : Cursor :=
  let start := BitVec.ofNat 32 (idHash.toNat % size.toNat)
  ⟨start, start, 0#32⟩

/-- `POS <- (POS + 1) mod SIZE[t]; CNT <- CNT + 1`. -/
def cursorAdvance (size : Word) (c : Cursor) : Cursor :=
  { c with pos := BitVec.ofNat 32 ((c.pos.toNat + 1) % size.toNat), cnt := c.cnt + 1#32 }

/-- A match (R186): both halves of the verification pair are equal. -/
def pairMatches (hashA hashB : Word) (b : Bucket) : Bool := b.hashA == hashA && b.hashB == hashB

/-- The record at which PUT's probe ends: an empty slot; PUT makes no comparison (R177, R178). -/
def stopsPut (rec : Option Bucket) : Bool := rec.isNone

/-- The record at which GET's and DEL's probe ends: an empty slot or a match (R185, R191). -/
def stopsLookup (hashA hashB : Word) (rec : Option Bucket) : Bool :=
  match rec with
  | none => true
  | some b => pairMatches hashA hashB b

/-- The probe loop with `fuel` positions left: the cursor where it ends and the record it ends at, or none when it has
wrapped back to START (`CNT = SIZE[t]`). -/
def probeLoop (stops : Option Bucket → Bool) (slots : Memory Bucket) (size : Word) :
    Nat → Cursor → Cursor × Option (Option Bucket)
  | 0, c => (c, none)
  | fuel + 1, c =>
    if stops (slotRead slots c.pos.toNat) then (c, some (slotRead slots c.pos.toNat))
    else probeLoop stops slots size fuel (cursorAdvance size c)

/-! ## Responses (`spec/30_encoding.md` R110 to R112) -/

/-- The status codes of R111. -/
def statusCode : Status → Word
  | .ok => 0#32
  | .notFound => 1#32
  | .capacityExhausted => 2#32
  | .invalidIndex => 3#32
  | .badTable => 4#32
  | .fault => 5#32

/-- The cause codes of `spec/60_exceptions.md` R245. -/
def causeCode : Cause → BitVec 4
  | .size => 1#4
  | .depth => 2#4
  | .badTable => 3#4
  | .tableLive => 4#4
  | .notGenerated => 5#4
  | .illegal => 6#4

/-- The response packet: status word, result word, value words (R110). -/
def Response.bytes (r : Response) : List Byte :=
  bytesOfWord (statusCode r.status) ++ bytesOfWord r.result ++ r.values.flatMap bytesOfWord

/-- `respond(OK, res)`. -/
def okResponse (res : Word) : Response := ⟨.ok, res, []⟩

/-- What a command's own part yields: the state it leaves and the response that ends it. -/
abbrev Result := State × Response

/-- End a command as one atomic step (`spec/43_controller.md` R221): the whole response goes out, and the block is idle
again, or dead if the command raised the fault (R225). -/
def emit (r : Result) : State :=
  { r.1 with
    rsp := r.1.rsp ++ r.2.bytes
    tx := []
    phase := if r.1.fault then .dead else .idle }

/-- End a command in the controller: enter phase RESP with the whole response still to be sent (R225). -/
def offer (r : Result) : State := { r.1 with tx := r.2.bytes, phase := .resp }

/-! ## The fatal fault and reset -/

/-- `raise Fault(cause)` (`spec/60_exceptions.md` R250): FAULT and FCAUSE are written and nothing else; the command ends
with `respond(FAULT, zext_32(cause))`. There is no return from it but reset (R252). -/
def raiseFault (c : Cause) (s : State) : Result :=
  ({ s with fault := true, fcause := causeCode c }, ⟨.fault, (causeCode c).setWidth 32, []⟩)

/-- The parameters a machine was built with. -/
def State.params (s : State) : Config.Params := ⟨s.ntab, s.slotDepth, s.ctHardwired⟩

/-- `rst` sampled high (`spec/70_reset_and_hazards.md` R280, R281): the reset state of the same machine, whatever it was
doing; both channels start afresh. Only the model's counter of free choices goes on (DESIGN CHOICE, unsafe: log entry 13). -/
def pulseReset (s : State) : State := { State.resetWith s.params with choices := s.choices }

/-! ## The free order of RELEASE (`spec/42_hashtable.md` R201) -/

/-- A permutation of a list chosen by `pick`: the `k`-th element is taken at place `pick k` (modulo the number of
elements left). Every permutation of the list is the result for some `pick`. -/
def permuteBy {α : Type} (pick : Nat → Nat) : Nat → Nat → List α → List α
  | 0, _, l => l
  | fuel + 1, k, l =>
    match l with
    | [] => []
    | [x] => [x]
    | x :: y :: l' =>
      let all := x :: y :: l'
      let n := pick k % all.length
      all.getD n x :: permuteBy pick fuel (k + 1) (all.eraseIdx n)

end Sys2Proof.Machine
end

