-- ==== Sys2Proof/Machine/Operands.lean ====
section
/-! DEFINITION. How a command reads its operands (`spec/30_encoding.md` R97 to R100) and the operand checks of
`spec/60_exceptions.md` R255, point 4. -/

namespace Sys2Proof.Machine

/-- CREATE's `size ≤ 0`, read as signed two's complement: `A = 0` or `A[31] = 1` (R98, `spec/42_hashtable.md` R171). -/
def sizeNotPositive (a : Word) : Bool := a == 0#32 || a.msb

/-- CREATE's operand checks in their order: FC_SIZE, then FC_DEPTH (`spec/42_hashtable.md` R171). -/
def sizeCheck (slotDepth : Nat) (a : Word) : Option Cause :=
  if sizeNotPositive a then some .size
  else if slotDepth < a.toNat then some .depth
  else none

/-- GETINDEX's `idx ≥ SIZE[t]`, unsigned (R98, `spec/42_hashtable.md` R188). -/
def idxOutOfRange (idx size : Word) : Bool := size ≤ idx

/-- `zext_32(tid)`. -/
def tidWord (tid : TableId) : Word := tid.setWidth 32

end Sys2Proof.Machine
end

