-- ==== Sys2Proof/Machine/Flags.lean ====
section
/-! DEFINITION. The flags GEN_DONE, VALID[t] and FAULT as commands test them (`spec/10_state.md` R25 to R27), and the
checks a command makes on its header before anything else, in the fixed order of `spec/60_exceptions.md` R255. -/

namespace Sys2Proof.Machine

/-- `t < NTAB` and `VALID[t] = 1`: the table reference is live (`spec/30_encoding.md` R99, `spec/42_hashtable.md` R170). -/
def State.live (s : State) (tid : TableId) : Bool := decide (tid.toNat < s.ntab) && (s.table tid).valid

/-- The table reference check of PUT, GET, GETINDEX, DEL and RELEASE (`spec/42_hashtable.md` R170). -/
def needLive (tid : TableId) (s : State) : Option Cause := if s.live tid then none else some .badTable

/-- The GEN_DONE check of the commands that read CT (`spec/60_exceptions.md` R246). -/
def needGenerated (s : State) : Option Cause := if s.genDone then none else some .notGenerated

/-- The table reference check of CREATE (`spec/42_hashtable.md` R170): FC_BAD_TABLE, then FC_TABLE_LIVE. -/
def needFree (tid : TableId) (s : State) : Option Cause :=
  if s.ntab ≤ tid.toNat then some .badTable
  else if (s.table tid).valid then some .tableLive
  else none

/-- The checks a legal header meets (`spec/60_exceptions.md` R255, points 2 and 3), the first that fails deciding.
GENERATE has none (`spec/40_crypttable.md` R131); LEN's invalid reference is a result status (R244), not a fault. -/
def headerCheck (h : Header) (s : State) : Option Cause :=
  match h with
  | .generate => none
  | .hash _ => needGenerated s
  | .create tid => needFree tid s
  | .put tid => (needGenerated s).or (needLive tid s)
  | .get tid => (needGenerated s).or (needLive tid s)
  | .getindex tid => needLive tid s
  | .del tid => (needGenerated s).or (needLive tid s)
  | .len _ => none
  | .release tid _ => needLive tid s

/-- One command as an atomic function (`spec/43_controller.md` R221): nothing runs while FAULT = 1 (`spec/60_exceptions.md`
R251); OPC takes the header word; a header check that fails raises the fault; otherwise the command's own part runs
and its response ends the command. -/
def runCommand (h : Header) (body : State → Result) (s : State) : Host.Outcome State Fault Refusal :=
  if s.fault then .fault .dead
  else
    match headerCheck h (s.loadHeader h) with
    | some c => .next (emit (raiseFault c (s.loadHeader h)))
    | none => .next (emit (body (s.loadHeader h)))

end Sys2Proof.Machine
end

