-- ==== Sys2Proof/Machine/CryptTable.lean ====
section
/-! DEFINITION. The command GENERATE (`spec/40_crypttable.md` R131) and its loop, whose one iteration is also phase GEN
of the controller (`spec/43_controller.md` R227). -/

namespace Sys2Proof.Machine

/-- LSEED, I1 and PASS on entry of the loop (R131, `spec/43_controller.md` R227). -/
def genRegsInit : GenRegs := ⟨BitVec.ofNat 22 Config.lcgSeed0, 0#8, 0#3⟩

/-- The CT index of a pass, `I1 + PASS*256` (R131). -/
def genIndex (g : GenRegs) : Nat := g.i1.toNat + g.pass.toNat * Config.bankWords

/-- One pass of the inner loop (R131): two LCG steps and one CT write, then `PASS + 1`, or PASS 0 and `I1 + 1` after
pass 4 (`spec/43_controller.md` R227). I1 is 8 bits wide, so it leaves the last iteration as 0:
DEDUCED, unsafe, log entry 6. -/
def genIter (x : GenRegs × Memory Word) : GenRegs × Memory Word :=
  let g := x.1
  let first := lcgStep g.lseed
  let second := lcgStep first
  let ct := ctWrite x.2 (genIndex g) (ctWordOfSteps first second)
  if g.pass.toNat + 1 = 5 then (⟨second, g.i1 + 1#8, 0#3⟩, ct)
  else (⟨second, g.i1, g.pass + 1#3⟩, ct)

/-- `n` iterations of the generation loop. -/
def genLoop : Nat → GenRegs × Memory Word → GenRegs × Memory Word
  | 0, x => x
  | n + 1, x => genLoop n (genIter x)

/-- `GEN_DONE <- 1`. -/
def State.setGenerated (s : State) : State := { s with genDone := true }

/-- The whole generation: 256 values of I1 times 5 passes, then `GEN_DONE <- 1`. -/
def runGeneration (s : State) : State :=
  (s.loadGen (genLoop Config.ctWords (genRegsInit, s.ct))).setGenerated

/-- GENERATE's own part (R131): a second one finds GEN_DONE = 1 and recomputes nothing (R137). -/
def generateBody (s : State) : Result :=
  if s.genDone then (s, okResponse 0#32) else (runGeneration s, okResponse 0#32)

/-- GENERATE (`spec/40_crypttable.md` R131). -/
def execGenerate (s : State) : Host.Outcome State Fault Refusal := runCommand .generate generateBody s

end Sys2Proof.Machine
end

