-- ==== Sys2Proof/Machine/HashUnit.lean ====
section
/-! DEFINITION. The hash datapath and the command HASH (`spec/41_hash.md` R150 to R159). -/

namespace Sys2Proof.Machine

/-- HASH's own part (R157): lane `ch` runs over the key; the other lanes are not used. -/
def hashBody (ch : Channel) (key : Key) (s : State) : Result :=
  (s.loadLanes (s.lanes.set ch (laneRun s.ct ch key)), okResponse (laneRun s.ct ch key).s1)

/-- HASH (`spec/41_hash.md` R157). -/
def execHash (ch : Channel) (key : Key) (s : State) : Host.Outcome State Fault Refusal :=
  runCommand (.hash ch) (hashBody ch key) s

end Sys2Proof.Machine
end

