-- ==== Sys2Proof/Machine/Table.lean ====
section
/-! DEFINITION. The table commands CREATE, PUT, GET, GETINDEX, DEL, LEN and RELEASE (`spec/42_hashtable.md`). The part in
which a command ends (its exit) is a definition of its own: the controller's phases end in the same one
(`spec/43_controller.md` R229 to R231). -/

namespace Sys2Proof.Machine

/-! ## Shared by PUT, GET and DEL -/

/-- The three lanes run over the key: idHash, hashA and hashB stand in S1[0], S1[1], S1[2] (R175). -/
def State.hashKey (s : State) (key : Key) : State := s.loadLanes (lanesRun s.ct key)

/-- START, POS and CNT are set from idHash and SIZE[t] (R176). -/
def State.startProbe (s : State) (tid : TableId) : State := s.loadCursor (cursorStart s.lanes.id.s1 (s.table tid).size)

/-- Run the probe of table `tid` to its end and let `exit` decide what the command does with the record found there;
none stands for a probe that has wrapped back to START (R176). -/
def runProbe (tid : TableId) (stops : Option Bucket → Bool) (exit : Option (Option Bucket) → State → Result)
    (s : State) : Result :=
  let c := s.table tid
  let r := probeLoop stops c.slots c.size c.size.toNat s.cur
  exit r.2 (s.loadCursor r.1)

/-! ## CREATE -/

/-- `SIZE[t] <- A; LEN[t] <- 0; POS <- 0` (R172, `spec/43_controller.md` R229). -/
def clearEntry (tid : TableId) (s : State) : State :=
  (s.setTable tid { s.table tid with size := s.arg, len := 0#32 }).loadPos 0#32

/-- `VALID[t] <- 1; respond(OK, zext_32(t))` (R172). -/
def createExit (tid : TableId) (s : State) : Result :=
  (s.setTable tid { s.table tid with valid := true }, okResponse (tidWord tid))

/-- Every slot below SIZE[t] emptied, POS at the end of the scan (R172, `spec/43_controller.md` R229). -/
def clearAll (tid : TableId) (s : State) : State :=
  let c := s.table tid
  (s.setTable tid { c with slots := Memory.clearBelow c.slots c.size.toNat }).loadPos c.size

/-- CREATE's own part (R172), its operand checks first (R171). -/
def createBody (tid : TableId) (size : Word) (s : State) : Result :=
  let s1 := s.loadArg size
  match sizeCheck s1.slotDepth size with
  | some c => raiseFault c s1
  | none => createExit tid (clearAll tid (clearEntry tid s1))

/-- CREATE (`spec/42_hashtable.md` R172). -/
def execCreate (tid : TableId) (size : Word) (s : State) : Host.Outcome State Fault Refusal :=
  runCommand (.create tid) (createBody tid size) s

/-! ## PUT -/

/-- How PUT ends (R177): the bucket (hashA, hashB, ARG) goes into the empty slot at POS and LEN[t] grows by one, or the
probe found none. -/
def putExit (tid : TableId) (found : Option (Option Bucket)) (s : State) : Result :=
  match found with
  | none => (s, ⟨.capacityExhausted, 0#32, []⟩)
  | some _ =>
    let c := s.table tid
    let b : Bucket := ⟨s.lanes.a.s1, s.lanes.b.s1, s.arg⟩
    (s.setTable tid { c with slots := slotWrite c.slots s.cur.pos.toNat (some b), len := c.len + 1#32 },
      okResponse s.cur.pos)

/-- PUT's own part (R177). -/
def putBody (tid : TableId) (value : Word) (key : Key) (s : State) : Result :=
  runProbe tid stopsPut (putExit tid) (((s.loadArg value).hashKey key).startProbe tid)

/-- PUT (`spec/42_hashtable.md` R177). -/
def execPut (tid : TableId) (value : Word) (key : Key) (s : State) : Host.Outcome State Fault Refusal :=
  runCommand (.put tid) (putBody tid value key) s

/-! ## GET -/

/-- How GET ends (R185): the value of the matching bucket, or not found at an empty slot or after a whole turn. -/
def getExit (found : Option (Option Bucket)) (s : State) : Result :=
  match found with
  | some (some b) => (s, okResponse b.value)
  | some none => (s, ⟨.notFound, 0#32, []⟩)
  | none => (s, ⟨.notFound, 0#32, []⟩)

/-- GET's own part (R185). -/
def getBody (tid : TableId) (key : Key) (s : State) : Result :=
  let s1 := (s.hashKey key).startProbe tid
  runProbe tid (stopsLookup s1.lanes.a.s1 s1.lanes.b.s1) getExit s1

/-- GET (`spec/42_hashtable.md` R185). -/
def execGet (tid : TableId) (key : Key) (s : State) : Host.Outcome State Fault Refusal :=
  runCommand (.get tid) (getBody tid key) s

/-! ## GETINDEX -/

/-- GETINDEX once ARG holds the index (R188). -/
def getindexExit (tid : TableId) (s : State) : Result :=
  let c := s.table tid
  if idxOutOfRange s.arg c.size then (s, ⟨.invalidIndex, 0#32, []⟩)
  else
    match slotRead c.slots s.arg.toNat with
    | none => (s, ⟨.notFound, 0#32, []⟩)
    | some b => (s, okResponse b.value)

/-- GETINDEX's own part (R188). -/
def getindexBody (tid : TableId) (idx : Word) (s : State) : Result := getindexExit tid (s.loadArg idx)

/-- GETINDEX (`spec/42_hashtable.md` R188). -/
def execGetindex (tid : TableId) (idx : Word) (s : State) : Host.Outcome State Fault Refusal :=
  runCommand (.getindex tid) (getindexBody tid idx) s

/-! ## DEL -/

/-- How DEL ends (R191): the matching bucket's slot becomes empty, no tombstone, LEN[t] shrinks by one and the value is
returned; or not found. -/
def delExit (tid : TableId) (found : Option (Option Bucket)) (s : State) : Result :=
  match found with
  | some (some b) =>
    let c := s.table tid
    (s.setTable tid { c with slots := slotWrite c.slots s.cur.pos.toNat none, len := c.len - 1#32 },
      okResponse b.value)
  | some none => (s, ⟨.notFound, 0#32, []⟩)
  | none => (s, ⟨.notFound, 0#32, []⟩)

/-- DEL's own part (R191): the same probe as GET's. -/
def delBody (tid : TableId) (key : Key) (s : State) : Result :=
  let s1 := (s.hashKey key).startProbe tid
  runProbe tid (stopsLookup s1.lanes.a.s1 s1.lanes.b.s1) (delExit tid) s1

/-- DEL (`spec/42_hashtable.md` R191). -/
def execDel (tid : TableId) (key : Key) (s : State) : Host.Outcome State Fault Refusal :=
  runCommand (.del tid) (delBody tid key) s

/-! ## LEN -/

/-- LEN's own part (R195): an invalid table reference is a result status, not a fault (`spec/60_exceptions.md` R244). -/
def lenBody (tid : TableId) (s : State) : Result :=
  if s.live tid then (s, okResponse (s.table tid).len) else (s, ⟨.badTable, Config.lenSentinel, []⟩)

/-- LEN (`spec/42_hashtable.md` R195). -/
def execLen (tid : TableId) (s : State) : Host.Outcome State Fault Refusal :=
  runCommand (.len tid) (lenBody tid) s

/-! ## RELEASE -/

/-- `POS <- 0`, nothing queued (`spec/43_controller.md` R231). -/
def releaseEntry (s : State) : State := (s.loadPos 0#32).loadVals []

/-- The values of the occupied slots with index below `n`, ascending: the scan of R200. -/
def occupiedValues (slots : Memory Bucket) (n : Nat) : List Word :=
  ((List.range n).filterMap fun i => slotRead slots i).map fun b => b.value

/-- A context that is no longer live: SIZE[t], LEN[t] and SLOT[t] are unspecified (R202), so each is a free value
(DESIGN CHOICE, unsafe for two runs compared: log entry 5). -/
def releasedContext (choice : Nat) (tid : TableId) : Context where
  valid := false
  size := Config.releasedSize choice tid.toNat
  len := Config.releasedLen choice tid.toNat
  slots := Memory.ofList ((Config.releasedSlots choice tid.toNat).map fun x => (x.1, ⟨x.2.1, x.2.2.1, x.2.2.2⟩))

/-- The next free choice will be another one (log entries 4 and 5). -/
def State.nextChoice (s : State) : State := { s with choices := s.choices + 1 }

/-- How RELEASE ends (R200): `VALID[t] <- 0` and the queued values go out in a free order (R201; DESIGN CHOICE,
unsafe for two runs compared: log entry 4). -/
def releaseExit (tid : TableId) (s : State) : Result :=
  let out := permuteBy (Config.releasePick s.choices) s.vals.length 0 s.vals
  (((s.setTable tid (releasedContext s.choices tid)).loadVals []).nextChoice,
    ⟨.ok, BitVec.ofNat 32 out.length, out⟩)

/-- RELEASE's own part (R200): with `cb` the value of every occupied slot is queued, without it none is. -/
def releaseBody (tid : TableId) (cb : Bool) (s : State) : Result :=
  let c := s.table tid
  let queued := if cb then occupiedValues c.slots c.size.toNat else []
  releaseExit tid (((releaseEntry s).loadPos c.size).loadVals queued)

/-- RELEASE (`spec/42_hashtable.md` R200). -/
def execRelease (tid : TableId) (cb : Bool) (s : State) : Host.Outcome State Fault Refusal :=
  runCommand (.release tid cb) (releaseBody tid cb) s

end Sys2Proof.Machine
end

