-- ==== Sys2Proof/Machine/Dispatch.lean ====
section
/-! DEFINITION. One arm per command: which meaning runs. -/

namespace Sys2Proof.Machine

def exec (i : Instr) (s : State) : Host.Outcome State Fault Refusal :=
  match i with
  | .generate => Sys2Proof.Machine.execGenerate s
  | .hash ch key => Sys2Proof.Machine.execHash ch key s
  | .create tid size => Sys2Proof.Machine.execCreate tid size s
  | .put tid value key => Sys2Proof.Machine.execPut tid value key s
  | .get tid key => Sys2Proof.Machine.execGet tid key s
  | .getindex tid idx => Sys2Proof.Machine.execGetindex tid idx s
  | .del tid key => Sys2Proof.Machine.execDel tid key s
  | .len tid => Sys2Proof.Machine.execLen tid s
  | .release tid cb => Sys2Proof.Machine.execRelease tid cb s

end Sys2Proof.Machine
end

