-- ==== Sys2Proof/Machine/Controller.lean ====
section
/-! DEFINITION. The controller (`spec/43_controller.md`): its ports and handshake (R222, R223) and one tick of each phase
(R225 to R231). A command run through the phases has the effect of its atomic meaning; that is a statement of
`Certificates/Slice0/Obligations.lean`, not a definition. -/

namespace Sys2Proof.Machine

/-! ## Ports (R222) -/

/-- The input ports at one rising edge of `clk`. -/
structure Pins where
  rst : Bool
  cmdValid : Bool
  cmdData : Byte
  rspReady : Bool
deriving DecidableEq, Repr

/-- `cmd_ready`: 1 only in the phases that receive packet bytes, IDLE being RECV_H with no byte yet received (R223,
R225). That it is 1 in every tick of them is a DESIGN CHOICE, unsafe: log entry 7. -/
def cmdReady (s : State) : Bool :=
  match s.phase with
  | .idle => true
  | .recvH => true
  | .recvA => true
  | .key => true
  | .gen => false
  | .clear => false
  | .probe => false
  | .rel => false
  | .resp => false
  | .dead => false

/-- `rsp_valid`: 1 only in phase RESP (R223). -/
def rspValid (s : State) : Bool := s.phase == .resp && !s.tx.isEmpty

/-- `rsp_data`: the next response byte; it has a meaning only while `rsp_valid` is 1. -/
def rspData (s : State) : Byte := s.tx.headD 0#8

/-! ## Receiving (RECV_H, RECV_A, KEY) -/

/-- Enter phase KEY: the active lane of HASH, or all three, start at the initial values (R228). -/
def keyEntry (h : Header) (s : State) : State :=
  match h with
  | .hash ch => (s.loadLanes (s.lanes.set ch laneInit)).enter .key
  | _ => (s.loadLanes lanesInit).enter .key

/-- The header word is complete: its legality, then GEN_DONE and the table reference (R225), then the next phase (R226). -/
def headerDone (s : State) : State :=
  match decodeHeader s.opc with
  | .error _ => offer (raiseFault .illegal s)
  | .ok h =>
    match headerCheck h s with
    | some c => offer (raiseFault c s)
    | none =>
      match h with
      | .generate => if s.genDone then offer (generateBody s) else (s.loadGen (genRegsInit, s.ct)).enter .gen
      | .hash _ => keyEntry h s
      | .create _ => s.enter .recvA
      | .put _ => s.enter .recvA
      | .get _ => keyEntry h s
      | .getindex _ => s.enter .recvA
      | .del _ => keyEntry h s
      | .len tid => offer (lenBody tid s)
      | .release _ _ => (releaseEntry s).enter .rel

/-- One header byte into OPC (R225). -/
def receiveHeaderByte (b : Byte) (s : State) : State :=
  let s1 := { s with opc := setByte s.opc s.rx b, rx := s.rx + 1#2 }
  if s.rx = 3#2 then headerDone s1 else s1.enter .recvH

/-- The argument word is complete (R225, R226). -/
def argDone (s : State) : State :=
  match decodeHeader s.opc with
  | .ok (.create tid) =>
    match sizeCheck s.slotDepth s.arg with
    | some c => offer (raiseFault c s)
    | none => (clearEntry tid s).enter .clear
  | .ok (.put tid) => keyEntry (.put tid) s
  | .ok (.getindex tid) => offer (getindexExit tid s)
  | _ => s

/-- One argument byte into ARG (R225). -/
def receiveArgByte (b : Byte) (s : State) : State :=
  let s1 := { s with arg := setByte s.arg s.rx b, rx := s.rx + 1#2 }
  if s.rx = 3#2 then argDone s1 else s1

/-- The zero byte has ended the key (R226, R228). -/
def keyDone (s : State) : State :=
  match decodeHeader s.opc with
  | .ok (.hash ch) => offer (s, okResponse (s.lanes.get ch).s1)
  | .ok (.put tid) => (s.startProbe tid).enter .probe
  | .ok (.get tid) => (s.startProbe tid).enter .probe
  | .ok (.del tid) => (s.startProbe tid).enter .probe
  | _ => s

/-- One key byte: a non-zero byte drives the step in the active lanes (R228). -/
def receiveKeyByte (b : Byte) (s : State) : State :=
  if b = 0#8 then keyDone s
  else
    match decodeHeader s.opc with
    | .ok (.hash ch) => s.loadLanes (s.lanes.set ch (laneStep s.ct ch (s.lanes.get ch) b))
    | _ => s.loadLanes (lanesStep s.ct s.lanes b)

/-! ## The loops (GEN, CLEAR, PROBE, REL) and RESP -/

/-- Phase GEN (R227): one (I1, PASS) pair; after I1 = 255, PASS = 4 the table is complete. -/
def genTick (s : State) : State :=
  let s1 := s.loadGen (genIter (s.gen, s.ct))
  if s.gen.i1 = 255#8 ∧ s.gen.pass = 4#3 then offer (s1.setGenerated, okResponse 0#32) else s1

/-- Phase CLEAR (R229): empty one slot; exit when POS = ARG. -/
def clearTick (s : State) : State :=
  match decodeHeader s.opc with
  | .ok (.create tid) =>
    let c := s.table tid
    let pos := s.cur.pos + 1#32
    let s1 := (s.setTable tid { c with slots := slotWrite c.slots s.cur.pos.toNat none }).loadPos pos
    if pos = s.arg then offer (createExit tid s1) else s1
  | _ => s

/-- One iteration of the slot-scanning state machine that insertion, lookup and deletion share (R230). -/
def probeIter (tid : TableId) (stops : Option Bucket → Bool) (exit : Option (Option Bucket) → State → Result)
    (s : State) : State :=
  let c := s.table tid
  if c.size ≤ s.cur.cnt then offer (exit none s)
  else
    let found := slotRead c.slots s.cur.pos.toNat
    if stops found then offer (exit (some found) s)
    else
      let s1 := s.loadCursor (cursorAdvance c.size s.cur)
      if s1.cur.cnt = c.size then offer (exit none s1) else s1

/-- Phase PROBE (R230). -/
def probeTick (s : State) : State :=
  match decodeHeader s.opc with
  | .ok (.put tid) => probeIter tid stopsPut (putExit tid) s
  | .ok (.get tid) => probeIter tid (stopsLookup s.lanes.a.s1 s.lanes.b.s1) getExit s
  | .ok (.del tid) => probeIter tid (stopsLookup s.lanes.a.s1 s.lanes.b.s1) (delExit tid) s
  | _ => s

/-- Phase REL (R231): read one slot and queue its value if `cb` is set; exit when POS = SIZE[t]. -/
def relTick (s : State) : State :=
  match decodeHeader s.opc with
  | .ok (.release tid cb) =>
    let c := s.table tid
    if c.size ≤ s.cur.pos then offer (releaseExit tid s)
    else
      let queued :=
        match slotRead c.slots s.cur.pos.toNat with
        | some b => if cb then s.vals ++ [b.value] else s.vals
        | none => s.vals
      let pos := s.cur.pos + 1#32
      let s1 := (s.loadPos pos).loadVals queued
      if pos = c.size then offer (releaseExit tid s1) else s1
  | _ => s

/-- Where the controller is between commands (R225). -/
def restPhase (s : State) : Phase := if s.fault then .dead else .idle

/-- Phase RESP (R225): the host has taken one response byte; after the last one the block is idle, or dead. -/
def respTick (s : State) : State :=
  match s.tx with
  | [] => { s with phase := restPhase s }
  | [b] => { s with rsp := s.rsp ++ [b], tx := [], phase := restPhase s }
  | b :: rest => { s with rsp := s.rsp ++ [b], tx := rest }

/-! ## One rising edge of the clock -/

/-- One tick. Reset comes first (`spec/70_reset_and_hazards.md` R280); a phase that waits for the host, with `cmd_valid` or
`rsp_ready` low, waits with no change of state (R223); in DEAD nothing happens (`spec/60_exceptions.md` R251). -/
def tick (p : Pins) (s : State) : State :=
  if p.rst then pulseReset s
  else
    match s.phase with
    | .idle => if p.cmdValid then receiveHeaderByte p.cmdData s else s
    | .recvH => if p.cmdValid then receiveHeaderByte p.cmdData s else s
    | .recvA => if p.cmdValid then receiveArgByte p.cmdData s else s
    | .key => if p.cmdValid then receiveKeyByte p.cmdData s else s
    | .gen => genTick s
    | .clear => clearTick s
    | .probe => probeTick s
    | .rel => relTick s
    | .resp => if p.rspReady then respTick s else s
    | .dead => s

/-- The pins a host that follows the protocol drives: it offers the next byte of the command channel, and takes every
response byte (`spec/70_reset_and_hazards.md` R299). -/
def hostPins (s : State) : Pins where
  rst := false
  cmdValid := !s.cmd.isEmpty
  cmdData := s.cmd.headD 0#8
  rspReady := true

/-- One tick of the controller with such a host: a byte leaves the command channel when `cmd_valid` and `cmd_ready` are
both 1 (R222). -/
def advance (s : State) : State :=
  let s1 := tick (hostPins s) s
  if cmdReady s && !s.cmd.isEmpty then { s1 with cmd := s.cmd.tail } else s1

/-- `n` ticks of the controller with such a host. -/
def advanceMany : Nat → State → State
  | 0, s => s
  | n + 1, s => advanceMany n (advance s)

end Sys2Proof.Machine
end

