-- ==== Sys2Proof/Machine/Fetch.lean ====
section
/-! DEFINITION. Taking a command from the command channel: the block has no program counter and fetches no instruction
from a memory (`spec/10_state.md` R30); its commands are the packets the host sends (`spec/30_encoding.md` R90, R92). -/

namespace Sys2Proof.Machine

/-- What stands at the head of the command channel. -/
def fetch (s : State) : Fetched := decodePacket s.cmd

/-- The command channel after a packet, or after an illegal header's four bytes, has been accepted. -/
def State.accept (s : State) (rest : List Byte) : State := { s with cmd := rest }

/-- An illegal header word (`spec/30_encoding.md` R101): it has entered OPC, and FC_ILLEGAL is raised; the bytes after
it are never consumed. -/
def rejectHeader (h : Word) (s : State) : State := emit (raiseFault .illegal { s with opc := h })

/-- The state in which the command packet of the opcode table's word `w` of `nbits` bits stands at the head of the
command channel, the controller between commands: the very next step accepts and runs it. -/
def placePacket (s : State) (nbits w : Nat) : State := { s with cmd := tablePacket nbits w, phase := .idle }

end Sys2Proof.Machine
end

