-- ==== Sys2Proof/Machine/Step.lean ====
section
/-! DEFINITION. One step of the machine. Between commands a step is one whole command (`spec/43_controller.md` R221); while
a packet is still arriving, and inside a command, a step is one tick of the controller (DESIGN CHOICE,
unsafe: log entries 10 and 11). -/

namespace Sys2Proof.Machine

/-- Between commands with FAULT = 0: a whole packet runs as one command, an illegal header faults, and with less than a
packet on the channel the controller takes what is there, or waits (`spec/60_exceptions.md` R263). -/
def stepIdle (s : State) : Host.Outcome State Fault Refusal :=
  match fetch s with
  | .packet i rest => exec i (s.accept rest)
  | .illegal h _ rest => .next (rejectHeader h (s.accept rest))
  | .incomplete => .next (advance s)

/-- One step; in DEAD, and between commands with FAULT = 1, there is none (`spec/60_exceptions.md` R251). -/
def step (s : State) : Host.Outcome State Fault Refusal :=
  match s.phase with
  | .dead => .fault .dead
  | .idle => if s.fault then .fault .dead else stepIdle s
  | .recvH => .next (advance s)
  | .recvA => .next (advance s)
  | .key => .next (advance s)
  | .gen => .next (advance s)
  | .clear => .next (advance s)
  | .probe => .next (advance s)
  | .rel => .next (advance s)
  | .resp => .next (advance s)

/-- `s` with the opcode table's word `w` of `nbits` bits placed where the next step takes its command (DESIGN CHOICE, safe:
log entry 9). -/
def State.withFetchWord (s : State) (nbits w : Nat) : State := placePacket s nbits w

end Sys2Proof.Machine
end

