-- ==== Sys2Proof/Machine/Assembler.lean ====
section
/-! DEFINITION. The assembler syntax of `spec/30_encoding.md` R120 and R121: one line is one command, and its packet is
`encode` of that command. Lines are lists of characters. What R120 does not say (where blanks may stand, that a number
too large for its operand is refused) is DESIGN CHOICE, unsafe, log entry 8. -/

namespace Sys2Proof.Machine

/-- The parts of a line. -/
inductive Token where
  | word (chars : List Char)
  | key (bytes : Key)
  | comma
deriving DecidableEq, Repr

/-- Where in a line the scanner is. -/
inductive ScanMode where
  | between
  | inWord (acc : List Char)
  | inKey (acc : Key)
  | afterBackslash (acc : Key)
  | hexHigh (acc : Key)
  | hexLow (acc : Key) (high : Nat)
  | inComment
  | failed
deriving DecidableEq, Repr

/-- The tokens read so far, newest first, and the scanner's mode. -/
structure Scan where
  toks : List Token
  mode : ScanMode
deriving DecidableEq, Repr

/-- The characters of mnemonics, operand names and numbers. -/
def isWordChar (c : Char) : Bool := c.isAlphanum || c == '-'

/-- A hexadecimal digit's value. -/
def hexDigit (c : Char) : Option Nat :=
  if '0' ≤ c ∧ c ≤ '9' then some (c.toNat - '0'.toNat)
  else if 'a' ≤ c ∧ c ≤ 'f' then some (c.toNat - 'a'.toNat + 10)
  else if 'A' ≤ c ∧ c ≤ 'F' then some (c.toNat - 'A'.toNat + 10)
  else none

/-- A decimal digit's value. -/
def decDigit (c : Char) : Option Nat := if '0' ≤ c ∧ c ≤ '9' then some (c.toNat - '0'.toNat) else none

/-- A character between tokens. -/
def scanBetween (toks : List Token) (c : Char) : Scan :=
  if c = ' ' ∨ c = '\t' then ⟨toks, .between⟩
  else if c = ',' then ⟨.comma :: toks, .between⟩
  else if c = '"' then ⟨toks, .inKey []⟩
  else if c = ';' then ⟨toks, .inComment⟩
  else if isWordChar c then ⟨toks, .inWord [c]⟩
  else ⟨toks, .failed⟩

/-- One character of a line. In a key literal a character stands for its ASCII byte, `\xHH` for the byte 0xHH but not
for zero, and `\\` and `\"` for themselves (R120). -/
def scanChar (s : Scan) (c : Char) : Scan :=
  match s.mode with
  | .between => scanBetween s.toks c
  | .inWord acc => if isWordChar c then ⟨s.toks, .inWord (c :: acc)⟩ else scanBetween (.word acc.reverse :: s.toks) c
  | .inKey acc =>
    if c = '"' then ⟨.key acc.reverse :: s.toks, .between⟩
    else if c = '\\' then ⟨s.toks, .afterBackslash acc⟩
    else if 0 < c.toNat ∧ c.toNat < 128 then ⟨s.toks, .inKey (BitVec.ofNat 8 c.toNat :: acc)⟩
    else ⟨s.toks, .failed⟩
  | .afterBackslash acc =>
    if c = '\\' ∨ c = '"' then ⟨s.toks, .inKey (BitVec.ofNat 8 c.toNat :: acc)⟩
    else if c = 'x' then ⟨s.toks, .hexHigh acc⟩
    else ⟨s.toks, .failed⟩
  | .hexHigh acc =>
    match hexDigit c with
    | some d => ⟨s.toks, .hexLow acc d⟩
    | none => ⟨s.toks, .failed⟩
  | .hexLow acc high =>
    match hexDigit c with
    | some d => if high * 16 + d = 0 then ⟨s.toks, .failed⟩ else ⟨s.toks, .inKey (BitVec.ofNat 8 (high * 16 + d) :: acc)⟩
    | none => ⟨s.toks, .failed⟩
  | .inComment => s
  | .failed => s

/-- The tokens of a line; none if a character has no place in it or a key literal is not closed. -/
def tokens (line : List Char) : Option (List Token) :=
  let s := line.foldl scanChar ⟨[], .between⟩
  match s.mode with
  | .between => some s.toks.reverse
  | .inComment => some s.toks.reverse
  | .inWord acc => some (Token.word acc.reverse :: s.toks).reverse
  | .inKey _ => none
  | .afterBackslash _ => none
  | .hexHigh _ => none
  | .hexLow _ _ => none
  | .failed => none

/-- A number from its digits, most significant first. -/
def digitsValue (base : Nat) (digit : Char → Option Nat) : List Char → Nat → Option Nat
  | [], acc => some acc
  | c :: cs, acc =>
    match digit c with
    | some d => digitsValue base digit cs (acc * base + d)
    | none => none

/-- A decimal or `0x` hexadecimal number (R120). -/
def numberValue (cs : List Char) : Option Nat :=
  match cs with
  | [] => none
  | '0' :: 'x' :: [] => none
  | '0' :: 'x' :: d :: ds => digitsValue 16 hexDigit (d :: ds) 0
  | d :: ds => digitsValue 10 decDigit (d :: ds) 0

/-- A 32-bit operand. -/
def wordOperand (cs : List Char) : Option Word :=
  match numberValue cs with
  | some n => if n < 2 ^ 32 then some (BitVec.ofNat 32 n) else none
  | none => none

/-- CREATE's size: a negative one is its 32-bit two's complement (R120). -/
def sizeOperand (cs : List Char) : Option Word :=
  match cs with
  | '-' :: ds =>
    match numberValue ds with
    | some n => if n ≤ 2 ^ 31 then some (BitVec.ofInt 32 (-(n : Int))) else none
    | none => none
  | _ => wordOperand cs

/-- `t<tid>`. -/
def tableOperand (cs : List Char) : Option TableId :=
  match cs with
  | 't' :: ds =>
    match numberValue ds with
    | some n => if n < 256 then some (BitVec.ofNat 8 n) else none
    | none => none
  | _ => none

/-- `id`, `a` or `b`. -/
def channelOperand (cs : List Char) : Option Channel :=
  if cs = ['i', 'd'] then some .id
  else if cs = ['a'] then some .a
  else if cs = ['b'] then some .b
  else none

/-- The commands with no operand but the table id. -/
def assembleTable (m : List Char) (tid : TableId) : Option Instr :=
  if m = ['l', 'e', 'n'] then some (.len tid)
  else if m = ['r', 'e', 'l', 'e', 'a', 's', 'e'] then some (.release tid false)
  else none

/-- The commands with a table id and a number or a name. -/
def assembleTableWord (m : List Char) (tid : TableId) (x : List Char) : Option Instr :=
  if m = ['c', 'r', 'e', 'a', 't', 'e'] then (sizeOperand x).map (.create tid)
  else if m = ['g', 'e', 't', 'i', 'n', 'd', 'e', 'x'] then (wordOperand x).map (.getindex tid)
  else if m = ['r', 'e', 'l', 'e', 'a', 's', 'e'] ∧ x = ['c', 'b'] then some (.release tid true)
  else none

/-- The commands with a table id and a key. -/
def assembleTableKey (m : List Char) (tid : TableId) (key : Key) : Option Instr :=
  if m = ['g', 'e', 't'] then some (.get tid key)
  else if m = ['d', 'e', 'l'] then some (.del tid key)
  else none

/-- The command a line's tokens stand for (R120); the table comes first, PUT's key before its value. -/
def assembleTokens : List Token → Option Instr
  | [.word m] => if m = ['g', 'e', 'n', 'e', 'r', 'a', 't', 'e'] then some .generate else none
  | [.word m, .word t] => (tableOperand t).bind (assembleTable m)
  | [.word m, .word t, .comma, .word x] => (tableOperand t).bind fun tid => assembleTableWord m tid x
  | [.word m, .word t, .comma, .key key] =>
    if m = ['h', 'a', 's', 'h'] then (channelOperand t).map fun ch => .hash ch key
    else (tableOperand t).bind fun tid => assembleTableKey m tid key
  | [.word m, .word t, .comma, .key key, .comma, .word x] =>
    if m = ['p', 'u', 't'] then (tableOperand t).bind fun tid => (wordOperand x).map fun v => .put tid v key
    else none
  | _ => none

/-- The one command a line stands for; there are no pseudo-instructions (R121). -/
def assemble (line : List Char) : Option Instr := (tokens line).bind assembleTokens

end Sys2Proof.Machine
end

