-- ==== Sys2Proof/Safety.lean ====
section
/-! DEFINITION. What the statements speak of: the invariant of `spec/10_state.md` R42 with the phase conditions that carry
it through the controller, what ends a command, runs of commands, and which runs are safe (`spec/60_exceptions.md` R251). -/

namespace Sys2Proof.Machine

/-! ## The invariant (`spec/10_state.md` R42) -/

/-- The number of occupied slots with index below `n`. -/
def occupiedCount (slots : Memory Bucket) (n : Nat) : Nat := (List.range n).countP fun i => (slotRead slots i).isSome

/-- A context whose slot memory is in canonical form and which, if it is live, has `1 ≤ SIZE[t] ≤ SLOT_DEPTH` (R42 a) and
LEN[t] the number of its occupied slots (R42 b; R42 c follows). -/
abbrev ContextOk (slotDepth : Nat) (c : Context) : Prop :=
  Memory.wf c.slots ∧
    (c.valid = true →
      1 ≤ c.size.toNat ∧ c.size.toNat ≤ slotDepth ∧ c.len.toNat = occupiedCount c.slots c.size.toNat)

/-- CT holds the constant of `spec/40_crypttable.md` R134. -/
abbrev CtIsConstant (ct : Memory Word) : Prop := ∀ n < Config.ctWords, ctRead ct n = ctConstantWord n

/-- The architectural part of the invariant: the parameters in their ranges (`spec/00_scope.md` R7), CT in canonical form
within its 1280 words and equal to the constant once GEN_DONE = 1 (R42 e), every context as above, and FCAUSE a
legal value that is 0 exactly when FAULT = 0 (`spec/10_state.md` R34). -/
abbrev ArchInv (s : State) : Prop :=
  s.params.legal ∧ Memory.ctWf s.ct ∧ (∀ c ∈ s.ct, c.1 < Config.ctWords) ∧
    (s.genDone = true → CtIsConstant s.ct) ∧ (s.ctHardwired = true → s.genDone = true) ∧
    (∀ c ∈ s.tables, ContextOk s.slotDepth c) ∧
    s.fcause.toNat ≤ 6 ∧ (s.fcause = 0#4 ↔ s.fault = false)

/-- No response is waiting, nothing is queued, and no word is partly received. -/
abbrev QuietRegs (s : State) : Prop := s.rx = 0#2 ∧ s.tx = [] ∧ s.vals = []

/-- The index of the `k`-th word produced by the generation (`spec/40_crypttable.md` R135). -/
def generatedIndex (k : Nat) : Nat := k / 5 + k % 5 * Config.bankWords

/-- The generation loop stands before its `k`-th pass: the registers are those of `k` passes from the entry values and
the words produced so far stand in CT. -/
abbrev GeneratedUpTo (k : Nat) (s : State) : Prop :=
  s.gen = (genLoop k (genRegsInit, [])).1 ∧ ∀ j < k, ctRead s.ct (generatedIndex j) = ctConstantWord (generatedIndex j)

/-- What holds in each phase of the controller (`spec/43_controller.md` R225 to R231). -/
def PhaseInv (s : State) : Prop :=
  match s.phase with
  | .idle => s.fault = false ∧ QuietRegs s
  | .recvH => s.fault = false ∧ s.tx = [] ∧ s.vals = [] ∧ s.rx ≠ 0#2
  | .recvA =>
    s.fault = false ∧ s.tx = [] ∧ s.vals = [] ∧
      ∃ h, decodeHeader s.opc = .ok h ∧ h.hasArg = true ∧ headerCheck h s = none
  | .key =>
    s.fault = false ∧ QuietRegs s ∧ ∃ h, decodeHeader s.opc = .ok h ∧ h.hasKey = true ∧ headerCheck h s = none
  | .gen =>
    s.fault = false ∧ QuietRegs s ∧ decodeHeader s.opc = .ok .generate ∧ s.genDone = false ∧
      ∃ k < Config.ctWords, GeneratedUpTo k s
  | .clear =>
    s.fault = false ∧ QuietRegs s ∧
      ∃ tid, decodeHeader s.opc = .ok (.create tid) ∧ headerCheck (.create tid) s = none ∧
        sizeCheck s.slotDepth s.arg = none ∧ (s.table tid).size = s.arg ∧ (s.table tid).len = 0#32 ∧
        s.cur.pos.toNat < s.arg.toNat ∧ ∀ i < s.cur.pos.toNat, slotRead (s.table tid).slots i = none
  | .probe =>
    s.fault = false ∧ QuietRegs s ∧
      ∃ h tid, decodeHeader s.opc = .ok h ∧ (h = .put tid ∨ h = .get tid ∨ h = .del tid) ∧ headerCheck h s = none ∧
        s.cur.pos.toNat < (s.table tid).size.toNat ∧ s.cur.cnt.toNat < (s.table tid).size.toNat
  | .rel =>
    s.fault = false ∧ s.rx = 0#2 ∧ s.tx = [] ∧
      ∃ tid cb, decodeHeader s.opc = .ok (.release tid cb) ∧ headerCheck (.release tid cb) s = none ∧
        s.cur.pos.toNat < (s.table tid).size.toNat
  | .resp => s.rx = 0#2 ∧ s.vals = [] ∧ s.tx ≠ []
  | .dead => s.fault = true ∧ QuietRegs s

/-- The invariant of every state that a run can reach. -/
def Inv (s : State) : Prop := ArchInv s ∧ PhaseInv s

/-- Between commands with FAULT = 0 (`spec/10_state.md` R41). -/
abbrev Ready (s : State) : Prop := s.phase = .idle ∧ s.fault = false ∧ QuietRegs s

/-! ## How a command ends -/

/-- The state after `respond` with a status other than FAULT (`spec/00_scope.md` R10): the response packet has gone out
and the block is idle. -/
def State.answer (s : State) (r : Response) : State := { s with rsp := s.rsp ++ r.bytes, tx := [], phase := .idle }

/-- The state after `raise Fault(c)` (`spec/60_exceptions.md` R250). -/
def State.die (s : State) (c : Cause) : State :=
  { s with
    fault := true
    fcause := causeCode c
    rsp := s.rsp ++ bytesOfWord 5#32 ++ bytesOfWord ((causeCode c).setWidth 32)
    tx := []
    phase := .dead }

/-- The status word of the response that a command took from `s` to `t` has sent. -/
def statusBetween (s t : State) : Option Word := (takeWord (t.rsp.drop s.rsp.length)).map Prod.fst

/-- The result word of that response. -/
def resultBetween (s t : State) : Option Word := (takeWord (t.rsp.drop (s.rsp.length + 4))).map Prod.fst

/-- The architectural state is the same (`spec/10_state.md` R20), the parameters too. -/
abbrev SameArch (s t : State) : Prop :=
  t.genDone = s.genDone ∧ t.ct = s.ct ∧ t.fault = s.fault ∧ t.fcause = s.fcause ∧ t.tables = s.tables ∧
    t.slotDepth = s.slotDepth ∧ t.ctHardwired = s.ctHardwired

/-! ## The probe path -/

/-- The `e`-th position probed for idHash in a table of `size` slots (`spec/42_hashtable.md` R176). -/
def pathPos (idHash size : Word) (e : Nat) : Nat := (idHash.toNat % size.toNat + e) % size.toNat

/-- What stands at the `e`-th position of `key`'s probe path in table `tid`. -/
def pathRecord (s : State) (tid : TableId) (key : Key) (e : Nat) : Option Bucket :=
  slotRead (s.table tid).slots (pathPos (keyHash s.ct .id key) (s.table tid).size e)

/-- The record carries `key`'s verification pair (`spec/42_hashtable.md` R186). -/
abbrev CarriesPair (s : State) (key : Key) (b : Bucket) : Prop :=
  b.hashA = keyHash s.ct .a key ∧ b.hashB = keyHash s.ct .b key

/-- The first `d` positions of the path hold buckets, none with `key`'s pair: a lookup passes over them. -/
abbrev LookupPasses (s : State) (tid : TableId) (key : Key) (d : Nat) : Prop :=
  ∀ e < d, ∃ b, pathRecord s tid key e = some b ∧ ¬ CarriesPair s key b

/-- The first `d` positions of the path hold buckets: an insertion passes over them. -/
abbrev InsertPasses (s : State) (tid : TableId) (key : Key) (d : Nat) : Prop :=
  ∀ e < d, ∃ b, pathRecord s tid key e = some b

/-- The probe registers after `d` advances from START (`spec/42_hashtable.md` R176). -/
def cursorAt (idHash size : Word) (d : Nat) : Cursor :=
  ⟨BitVec.ofNat 32 (pathPos idHash size 0), BitVec.ofNat 32 (pathPos idHash size d), BitVec.ofNat 32 d⟩

/-- The probe registers after `n` advances by `POS <- (POS + 1) mod SIZE[t]; CNT <- CNT + 1` (`spec/42_hashtable.md` R176). -/
def cursorSteps (size : Word) : Nat → Cursor → Cursor
  | 0, c => c
  | n + 1, c => cursorAdvance size (cursorSteps size n c)

/-- The working registers after a probe for `key` that ended `d` positions from START: the lanes hold the three
hashes (R175), the cursor the place. -/
def State.probed (s : State) (tid : TableId) (key : Key) (d : Nat) : State :=
  (s.loadLanes ⟨laneRun s.ct .id key, laneRun s.ct .a key, laneRun s.ct .b key⟩).loadCursor
    (cursorAt (keyHash s.ct .id key) (s.table tid).size d)

/-- How many iterations the loop of a command has at most (`spec/43_controller.md` R226, R232). -/
def loopIterations (i : Instr) (s : State) : Nat :=
  match i with
  | .generate => Config.ctWords
  | .hash _ _ => 0
  | .create _ size => size.toNat
  | .put tid _ _ => max 1 (s.table tid).size.toNat
  | .get tid _ => max 1 (s.table tid).size.toNat
  | .getindex _ _ => 0
  | .del tid _ => max 1 (s.table tid).size.toNat
  | .len _ => 0
  | .release tid _ => max 1 (s.table tid).size.toNat

/-! ## Runs of commands (`spec/43_controller.md` R221) -/

/-- The fold of the commands' meanings; none if one of them does not answer with a next state. -/
def runCommands : List Instr → State → Option State
  | [], s => some s
  | i :: is, s =>
    match exec i s with
    | .next t => runCommands is t
    | .fault _ => none
    | .refused _ => none

/-- Successful PUTs minus successful DELs on table `tid` in a run of commands. -/
def netInsertions (tid : TableId) : List Instr → State → Int
  | [], _ => 0
  | i :: is, s =>
    match exec i s with
    | .next t =>
      let here : Int :=
        match i with
        | .put k _ _ => if k = tid ∧ statusBetween s t = some 0#32 then 1 else 0
        | .del k _ => if k = tid ∧ statusBetween s t = some 0#32 then -1 else 0
        | _ => 0
      here + netInsertions tid is t
    | .fault _ => 0
    | .refused _ => 0

/-- A safe run of commands: it ends with FAULT = 0, the premise that every claim about a run takes (`spec/60_exceptions.md`
R251). -/
def SafeRun (is : List Instr) (s t : State) : Prop := runCommands is s = some t ∧ t.fault = false

/-! ## The properties the document asks to be tested (`spec/42_hashtable.md` R205, one definition for each row) -/

/-- First row (`spec/90_conflicts.md` C1): PUT succeeds, and the GET right after it answers the new value if no slot between
START and the one PUT fills carries the key's pair, otherwise the value of the first that does. -/
def PutThenGet (s : State) (tid : TableId) (value : Word) (key : Key) : Prop :=
  ∃ d t u, InsertPasses s tid key d ∧ pathRecord s tid key d = none ∧
    exec (.put tid value key) s = .next t ∧ statusBetween s t = some 0#32 ∧
    exec (.get tid key) t = .next u ∧ statusBetween t u = some 0#32 ∧
    (LookupPasses s tid key d → resultBetween t u = some value) ∧
    ∀ e < d, LookupPasses s tid key e → ∀ b, pathRecord s tid key e = some b → CarriesPair s key b →
      resultBetween t u = some b.value

/-- Second row (`spec/90_conflicts.md` C3): DEL completes, whether it finds the key or not, and the GET of the key right after
it is NOT_FOUND. -/
def DelThenGet (s : State) (tid : TableId) (key : Key) : Prop :=
  ∃ t u, exec (.del tid key) s = .next t ∧ t.fault = false ∧ exec (.get tid key) t = .next u ∧
    statusBetween t u = some 1#32

/-- Third row: after a safe run that begins with CREATE of the table and holds no other CREATE or RELEASE of it, LEN answers
the successful PUTs minus the successful DELs. -/
def LenIsPutsMinusDels (s : State) (tid : TableId) : Prop :=
  ∀ (size : Word) (is : List Instr) (t : State), SafeRun (.create tid size :: is) s t →
    (∀ n, Instr.create tid n ∉ is) → (∀ cb, Instr.release tid cb ∉ is) →
    ∃ u n, exec (.len tid) t = .next u ∧ statusBetween t u = some 0#32 ∧ resultBetween t u = some n ∧
      (n.toNat : Int) = netInsertions tid (.create tid size :: is) s

/-- Fourth row: `create(0)` and `create(-1)` both raise Fault(FC_SIZE). -/
def CreateNonPositiveFaults (s : State) (tid : TableId) : Prop :=
  ∀ size : Word, size = 0#32 ∨ size = 0xFFFFFFFF#32 →
    ∃ t, exec (.create tid size) s = .next t ∧ t.fault = true ∧ t.fcause = 1#4 ∧ statusBetween s t = some 5#32 ∧
      resultBetween s t = some 1#32

/-- Fifth row: PUT answers CAPACITY_EXHAUSTED on a table with LEN = SIZE, and only then. -/
def PutExhaustedIffFull (s : State) (tid : TableId) (value : Word) (key : Key) : Prop :=
  ∃ t, exec (.put tid value key) s = .next t ∧
    (statusBetween s t = some 2#32 ↔ (s.table tid).len = (s.table tid).size)

/-- Sixth row: RELEASE with the callback emits the value of every occupied slot exactly once, in some order. -/
def ReleaseEmitsEachValueOnce (s : State) (tid : TableId) : Prop :=
  ∃ (t : State) (vals : List Word), exec (.release tid true) s = .next t ∧
    t.rsp = s.rsp ++ bytesOfWord 0#32 ++ bytesOfWord (BitVec.ofNat 32 vals.length) ++ vals.flatMap bytesOfWord ∧
    vals.Perm
      (((List.range (s.table tid).size.toNat).filterMap fun i => slotRead (s.table tid).slots i).map Bucket.value)

end Sys2Proof.Machine
end

