-- ==== Sys2Proof/Certificates/Slice0/Obligations.lean ====
section
/-! DEFINITION. The statements about the model, for the provers. Each docstring names the rule of `spec/` it formalises, or
says that it is the model's own. `OBLIGATIONS.json` lists them. -/

open Sys2Proof Sys2Proof.Machine

/-! ## Encoding -/

/-- `spec/30_encoding.md` R92, R94, R95: the decoder reads every well-formed command back from its packet, whatever bytes
follow, with every operand at every value. -/
def Obligations.DecodeEncodeRoundTrip : Prop :=
  ∀ (i : Instr) (rest : List Byte), i.wf = true → decodePacket (encode i ++ rest) = .packet i rest

/-- `spec/30_encoding.md` R92, R102: a packet that decodes is the encoding of the well-formed command it decodes to; no byte
of it is dropped and no command has a second encoding. -/
def Obligations.DecodedPacketIsEncoding : Prop :=
  ∀ (bytes rest : List Byte) (i : Instr), decodePacket bytes = .packet i rest → i.wf = true ∧ bytes = encode i ++ rest

/-- `spec/30_encoding.md` R96: a legal header word matches the row of its command, `H AND mask = match`; a word that matches
a row is legal but for HASH with `ch > 2`; and no word matches two rows. -/
def Obligations.OpcodeRowsSelectCommands : Prop :=
  let rows : List (Word × Word) :=
    [(0x00000001#32, 0xFFFFFFFF#32), (0x00000002#32, 0xFFFFFF8F#32), (0x00000003#32, 0xFFFF00FF#32),
      (0x00000004#32, 0xFFFF00FF#32), (0x00000005#32, 0xFFFF00FF#32), (0x00000006#32, 0xFFFF00FF#32),
      (0x00000007#32, 0xFFFF00FF#32), (0x00000008#32, 0xFFFF00FF#32), (0x00000009#32, 0xFFFF007F#32)]
  let rowOf : Header → Nat := fun h =>
    match h with
    | .generate => 0
    | .hash _ => 1
    | .create _ => 2
    | .put _ => 3
    | .get _ => 4
    | .getindex _ => 5
    | .del _ => 6
    | .len _ => 7
    | .release _ _ => 8
  (∀ (w : Word) (h : Header), decodeHeader w = .ok h →
      ∃ r, rows[rowOf h]? = some r ∧ w &&& r.2 = r.1) ∧
    (∀ w : Word, (∃ r ∈ rows, w &&& r.2 = r.1) → ¬ (w &&& 0xFFFFFF8F#32 = 2#32 ∧ 2#3 < w.extractLsb' 4 3) →
      ∃ h, decodeHeader w = .ok h) ∧
    (∀ w : Word, (rows.filter fun r => w &&& r.2 = r.1).length ≤ 1)

/-- `spec/30_encoding.md` R101: which header words are illegal, that an illegal one raises Fault(FC_ILLEGAL) with its four
bytes received (response status 5, cause 6), that the bytes after it are never consumed, and the same in the terms of
the opcode table's match and mask. -/
def Obligations.IllegalHeaderFaults : Prop :=
  ∀ (w : Word) (rest : List Byte),
    let op := w.extractLsb' 0 4
    let ch := w.extractLsb' 4 3
    let cb := w.extractLsb' 7 1
    let tid := w.extractLsb' 8 8
    let illegal : Prop :=
      op = 0#4 ∨ 10#4 ≤ op ∨ w.extractLsb' 16 16 ≠ 0#16 ∨ (ch ≠ 0#3 ∧ op ≠ 2#4) ∨ (op = 2#4 ∧ 3#3 ≤ ch) ∨
        (cb ≠ 0#1 ∧ op ≠ 9#4) ∨ (tid ≠ 0#8 ∧ (op = 1#4 ∨ op = 2#4))
    ((∃ why, decodePacket (bytesOfWord w ++ rest) = .illegal w why rest) ↔ illegal) ∧
      (illegal ↔
        (∀ r ∈ ([(0x00000001#32, 0xFFFFFFFF#32), (0x00000002#32, 0xFFFFFF8F#32), (0x00000003#32, 0xFFFF00FF#32),
            (0x00000004#32, 0xFFFF00FF#32), (0x00000005#32, 0xFFFF00FF#32), (0x00000006#32, 0xFFFF00FF#32),
            (0x00000007#32, 0xFFFF00FF#32), (0x00000008#32, 0xFFFF00FF#32), (0x00000009#32, 0xFFFF007F#32)] :
            List (Word × Word)), w &&& r.2 ≠ r.1) ∨
          (w &&& 0xFFFFFF8F#32 = 2#32 ∧ 2#3 < ch)) ∧
      ∀ s : State, illegal → s.phase = .idle → s.fault = false → s.cmd = bytesOfWord w ++ rest →
        ∃ t, step s = .next t ∧
          t = { s with
            opc := t.opc
            cmd := rest
            fault := true
            fcause := 6#4
            rsp := s.rsp ++ [5#8, 0#8, 0#8, 0#8, 6#8, 0#8, 0#8, 0#8]
            tx := []
            phase := .dead } ∧
          step t = .fault .dead ∧ ∀ p : Pins, p.rst = false → tick p t = t

/-- `spec/30_encoding.md` R91: a word travels least significant byte first, and the bytes make the word again; the header
and argument words of every command and every word of a response travel so, and key bytes travel in string order. -/
def Obligations.WordsTravelLeastSignificantByteFirst : Prop :=
  ∀ (w : Word) (rest : List Byte),
    bytesOfWord w =
        [BitVec.ofNat 8 w.toNat, BitVec.ofNat 8 (w.toNat / 256), BitVec.ofNat 8 (w.toNat / 65536),
          BitVec.ofNat 8 (w.toNat / 16777216)] ∧
      takeWord (bytesOfWord w ++ rest) = some (w, rest) ∧
      (∀ (c : Channel) (tid : TableId) (key : Key),
        encode (.hash c key) = bytesOfWord (encodeHeader (.hash c)) ++ key ++ [0#8] ∧
          encode (.create tid w) = bytesOfWord (encodeHeader (.create tid)) ++ bytesOfWord w ∧
          encode (.put tid w key) = bytesOfWord (encodeHeader (.put tid)) ++ bytesOfWord w ++ key ++ [0#8] ∧
          encode (.get tid key) = bytesOfWord (encodeHeader (.get tid)) ++ key ++ [0#8] ∧
          encode (.getindex tid w) = bytesOfWord (encodeHeader (.getindex tid)) ++ bytesOfWord w ∧
          encode (.del tid key) = bytesOfWord (encodeHeader (.del tid)) ++ key ++ [0#8] ∧
          encode .generate = bytesOfWord (encodeHeader .generate) ∧
          encode (.len tid) = bytesOfWord (encodeHeader (.len tid)) ∧
          ∀ cb, encode (.release tid cb) = bytesOfWord (encodeHeader (.release tid cb))) ∧
      ∀ r : Response, r.bytes = bytesOfWord (statusCode r.status) ++ bytesOfWord r.result ++ r.values.flatMap bytesOfWord

/-- `spec/30_encoding.md` R122: the worked encodings, from the assembler line to the packet and from the packet to the
command. -/
def Obligations.WorkedEncodings : Prop :=
  ∀ x ∈ ([("generate", [0x01#8, 0x00#8, 0x00#8, 0x00#8]),
      ("hash a, \"ab\"", [0x12#8, 0x00#8, 0x00#8, 0x00#8, 0x61#8, 0x62#8, 0x00#8]),
      ("create t0, 11", [0x03#8, 0x00#8, 0x00#8, 0x00#8, 0x0B#8, 0x00#8, 0x00#8, 0x00#8]),
      ("put t0, \"a\", 1", [0x04#8, 0x00#8, 0x00#8, 0x00#8, 0x01#8, 0x00#8, 0x00#8, 0x00#8, 0x61#8, 0x00#8]),
      ("get t1, \"\"", [0x05#8, 0x01#8, 0x00#8, 0x00#8, 0x00#8]),
      ("getindex t0, 10", [0x06#8, 0x00#8, 0x00#8, 0x00#8, 0x0A#8, 0x00#8, 0x00#8, 0x00#8]),
      ("release t1, cb", [0x89#8, 0x01#8, 0x00#8, 0x00#8])] : List (String × List Byte)),
    ∃ i, assemble x.1.toList = some i ∧ encode i = x.2 ∧ decodePacket x.2 = .packet i []

/-- `spec/30_encoding.md` R121: every line the assembler accepts is exactly one command, well formed, whose packet the block
decodes to that command. -/
def Obligations.AssembledLineIsOneCommand : Prop :=
  ∀ (line : List Char) (i : Instr) (rest : List Byte), assemble line = some i →
    i.wf = true ∧ decodePacket (encode i ++ rest) = .packet i rest

/-! ## Taking a command -/

/-- `spec/43_controller.md` R221: between commands with FAULT = 0, when the bytes on the command channel decode to a
command, the step is that command's meaning with its packet accepted. That such a step is one whole command, and accepts the
whole packet even if the command faults (which R226 and V9 leave unobservable), is the model's choice: log entry 10. -/
def Obligations.StepRunsDecodedCommand : Prop :=
  ∀ (s : State) (i : Instr) (rest : List Byte),
    s.phase = .idle → s.fault = false → decodePacket s.cmd = .packet i rest → step s = exec i { s with cmd := rest }

/-- `spec/60_exceptions.md` R263: a block with no command to execute waits in IDLE with all state kept. -/
def Obligations.StepWaitsWithoutCommand : Prop :=
  ∀ s : State, s.phase = .idle → s.fault = false → s.cmd = [] → step s = .next s

/-! ## CryptTable and GENERATE -/

/-- `spec/40_crypttable.md` R131, R134: the first GENERATE completes and leaves in CT the constant of R134, for the sequence
s(n) of R134 whatever function computes it, with the words and the last seed R134 lists; it answers (OK, 0), and nothing else
of the architectural state changes but GEN_DONE. What LSEED and the other working registers hold afterwards is the
model's: log entry 6. -/
def Obligations.GeneratedTableIsTheConstant : Prop :=
  ∀ (sq : Nat → Nat) (s : State), sq 0 = 0x100001 → (∀ n, sq (n + 1) = (sq n * 125 + 3) % 0x2AAAAB) →
    s.fault = false → s.genDone = false →
    ∃ t, exec .generate s = .next t ∧
      (∀ i < 256, ∀ p < 5,
        (ctRead t.ct (i + 256 * p)).toNat =
          sq (10 * i + 2 * p + 1) % 65536 * 65536 + sq (10 * i + 2 * p + 2) % 65536) ∧
      (∀ n, 1280 ≤ n → ctRead t.ct n = ctRead s.ct n) ∧
      t.gen.lseed.toNat = sq 2560 ∧ sq 2560 = 0x0E286C ∧
      ctRead t.ct 0 = 0x55C636E2#32 ∧ ctRead t.ct 1 = 0x02BE0170#32 ∧ ctRead t.ct 2 = 0x584B71D4#32 ∧
      ctRead t.ct 3 = 0x2984F00E#32 ∧ ctRead t.ct 256 = 0x76F8C1B1#32 ∧ ctRead t.ct 512 = 0x3DF6965D#32 ∧
      ctRead t.ct 768 = 0x15F261D3#32 ∧ ctRead t.ct 1024 = 0x193AA698#32 ∧ ctRead t.ct 1279 = 0x7303286C#32 ∧
      t = ({ s with opc := t.opc, ct := t.ct, gen := t.gen, genDone := true }).answer ⟨.ok, 0#32, []⟩

/-- `spec/40_crypttable.md` R135: before the k-th pass of the loop the seed has made 2k steps, and the pass writes the word
built from steps 2k+1 and 2k+2 at index `(k div 5) + (k mod 5)*256`. -/
def Obligations.GenerationOrder : Prop :=
  ∀ (k : Nat) (ct : Memory Word), k < 1280 →
    let before := genLoop k (genRegsInit, ct)
    let after := genLoop (k + 1) (genRegsInit, ct)
    before.1.lseed = lcgSeq (2 * k) ∧ before.1.i1.toNat = k / 5 ∧ before.1.pass.toNat = k % 5 ∧
      ∀ n, ctRead after.2 n =
        if n = k / 5 + k % 5 * 256 then
          (lcgSeq (2 * k + 1)).extractLsb' 0 16 ++ (lcgSeq (2 * k + 2)).extractLsb' 0 16
        else ctRead before.2 n

/-- `spec/40_crypttable.md` R132, R133: the LCG step is the exact one, every seed stays below 0x2AAAAB, and the product-sum of
a step stays at or below 349525253, so it never needs more than 29 bits. -/
def Obligations.LcgStepIsExact : Prop :=
  lcgSeq 0 = 0x100001#22 ∧
    ∀ n, (lcgSeq (n + 1)).toNat = ((lcgSeq n).toNat * 125 + 3) % 0x2AAAAB ∧ (lcgSeq n).toNat < 0x2AAAAB ∧
      (lcgSeq n).toNat * 125 + 3 ≤ 349525253 ∧ (lcgSeq n).toNat * 125 + 3 < 2 ^ 29

/-- `spec/40_crypttable.md` R131, R137: a GENERATE that finds GEN_DONE = 1 recomputes nothing and responds (OK, 0).
What the working registers are left with is log entry 6. -/
def Obligations.SecondGenerateChangesNothing : Prop :=
  ∀ s : State, s.fault = false → s.genDone = true →
    exec .generate s = .next ((s.loadHeader .generate).answer (okResponse 0#32))

/-! ## The hash -/

/-- `spec/41_hash.md` R154: the empty key yields 0x7FED7FED for every channel, and every command that takes a key takes it:
the packet of each of the four, written out, is accepted. -/
def Obligations.EmptyKeyHashesToSeed : Prop :=
  (∀ (ct : Memory Word) (c : Channel), keyHash ct c [] = 0x7FED7FED#32) ∧
    (∀ (s : State) (c : Channel), s.fault = false → s.genDone = true →
      ∃ t, exec (.hash c []) s = .next t ∧ SameArch s t ∧ t.phase = .idle ∧
        t.rsp = s.rsp ++ [0#8, 0#8, 0#8, 0#8, 0xED#8, 0x7F#8, 0xED#8, 0x7F#8]) ∧
    ∀ (rest : List Byte) (c : Channel) (tid : TableId) (v : Word),
      decodePacket (encode (.hash c []) ++ rest) = .packet (.hash c []) rest ∧
        decodePacket (encode (.put tid v []) ++ rest) = .packet (.put tid v []) rest ∧
        decodePacket (encode (.get tid []) ++ rest) = .packet (.get tid []) rest ∧
        decodePacket (encode (.del tid []) ++ rest) = .packet (.del tid []) rest

/-- `spec/41_hash.md` R151, R152, R153: a lane starts at the two seeds; one more byte takes it through the step, the new S1
in the second line and sums modulo 2^32; the hash is S1 at the end. -/
def Obligations.HashStepFormula : Prop :=
  ∀ (ct : Memory Word) (c : Channel),
    laneRun ct c [] = ⟨0x7FED7FED#32, 0xEEEEEEEE#32⟩ ∧
      ∀ (key : Key) (ch : Byte),
        let old := laneRun ct c key
        let new := laneRun ct c (key ++ [ch])
        let w := ctRead ct ((channelCode c).toNat * 256 + ch.toNat)
        new.s1 = w ^^^ BitVec.ofNat 32 (old.s1.toNat + old.s2.toNat) ∧
          new.s2.toNat =
            (ch.toNat + new.s1.toNat + old.s2.toNat + old.s2.toNat * 32 % 4294967296 + 3) % 4294967296 ∧
          keyHash ct c key = old.s1

/-- `spec/41_hash.md` R155: one pass with three lanes gives what three separate runs give. -/
def Obligations.LanesEqualThreeRuns : Prop :=
  ∀ (ct : Memory Word) (key : Key), lanesRun ct key = ⟨laneRun ct .id key, laneRun ct .a key, laneRun ct .b key⟩

/-- `spec/41_hash.md` R157: HASH completes when GEN_DONE = 1, answers the hash of its channel, writes that lane and OPC, and
changes nothing else.
What the working registers are left with is log entry 6. -/
def Obligations.HashAnswersTheHash : Prop :=
  ∀ (c : Channel) (key : Key) (s : State), s.fault = false → s.genDone = true →
    exec (.hash c key) s =
      .next (((s.loadHeader (.hash c)).loadLanes (s.lanes.set c (laneRun s.ct c key))).answer
        (okResponse (keyHash s.ct c key)))

/-- `spec/20_memory.md` R61: a lane reading a key byte reads the word at `(c << 8) | ch`, which equals `c*256 + ch` and lies
in 1..767 for a key byte. -/
def Obligations.CtIndexStaysInRange : Prop :=
  ∀ (ct : Memory Word) (l : Lane) (c : Channel) (ch : Byte),
    (laneStep ct c l ch).s1 ^^^ (l.s1 + l.s2) = ctRead ct (ctIndex c ch) ∧ ctIndex c ch = (channelCode c).toNat <<< 8 ||| ch.toNat ∧ ctIndex c ch = (channelCode c).toNat * 256 + ch.toNat ∧
      (ch ≠ 0#8 → 1 ≤ ctIndex c ch ∧ ctIndex c ch ≤ 767)

/-- `spec/20_memory.md` R62: a lane reads its own bank only, and not the bank's first word: two tables that agree on the
other 255 words of the bank give every key the same hash, so banks 3 and 4 are read by nothing. -/
def Obligations.HashReadsItsBankOnly : Prop :=
  ∀ (ct ct' : Memory Word) (c : Channel) (key : Key), keyWf key = true →
    (∀ n, (channelCode c).toNat * 256 < n → n < (channelCode c).toNat * 256 + 256 → ctRead ct n = ctRead ct' n) →
    keyHash ct c key = keyHash ct' c key

/-- `spec/41_hash.md` R156: after generation the hash is a fixed function of key and channel: any two generated machines
answer HASH with the same bytes. -/
def Obligations.HashIsPure : Prop :=
  ∀ (c : Channel) (key : Key) (s s' : State), s.fault = false → s'.fault = false → s.genDone = true →
    s'.genDone = true → CtIsConstant s.ct → CtIsConstant s'.ct →
    ∃ t t', exec (.hash c key) s = .next t ∧ exec (.hash c key) s' = .next t' ∧
      t.rsp.drop s.rsp.length = t'.rsp.drop s'.rsp.length

/-! ## CREATE -/

/-- `spec/42_hashtable.md` R172: CREATE on a free context, with a positive size within SLOT_DEPTH, completes: the context is
live, has that size, length 0 and empty slots; slots at or beyond the size, the other contexts and everything else are
unchanged; the response is (OK, tid).
What the working registers are left with is log entry 6. -/
def Obligations.CreateMakesEmptyTable : Prop :=
  ∀ (tid : TableId) (size : Word) (s : State), s.fault = false → tid.toNat < s.ntab → (s.table tid).valid = false →
    size ≠ 0#32 → size.msb = false → size.toNat ≤ s.slotDepth →
    ∃ t, exec (.create tid size) s = .next t ∧
      (t.table tid).valid = true ∧ (t.table tid).size = size ∧ (t.table tid).len = 0#32 ∧
      (∀ i < size.toNat, slotRead (t.table tid).slots i = none) ∧
      (∀ i, size.toNat ≤ i → slotRead (t.table tid).slots i = slotRead (s.table tid).slots i) ∧
      t = ({ ((s.loadHeader (.create tid)).loadArg size).loadPos size with
              tables := s.tables.set tid.toNat (t.table tid) }).answer (okResponse (tid.setWidth 32))

/-! ## The probe, PUT, GET, DEL -/

/-- `spec/42_hashtable.md` R176, of the probe registers the machine forms: START and POS begin at idHash mod SIZE[t] with CNT 0;
each advance takes POS to (POS + 1) mod SIZE[t], keeps START, and CNT counts it; POS is the path's position; the SIZE[t]
positions are the slots of the table, each exactly once; the probe loop ends at the first of them that stops it; and one
that nothing stops ends back at START with CNT = SIZE[t]. -/
def Obligations.ProbeVisitsEverySlotOnce : Prop :=
  ∀ (idHash size : Word) (slots : Memory Bucket), 0 < size.toNat →
    let start := cursorStart idHash size
    let cur : Nat → Cursor := fun e => cursorSteps size e start
    (start.pos.toNat = idHash.toNat % size.toNat ∧ start.start = start.pos ∧ start.cnt = 0#32) ∧
      (∀ e, (cur (e + 1)).pos.toNat = ((cur e).pos.toNat + 1) % size.toNat ∧ (cur e).start = start.start ∧
        (cur e).pos.toNat = pathPos idHash size e) ∧
      (∀ e ≤ size.toNat, (cur e).cnt.toNat = e) ∧
      (∀ e e', e < size.toNat → e' < size.toNat → (cur e).pos = (cur e').pos → e = e') ∧
      (∀ i < size.toNat, ∃ e < size.toNat, (cur e).pos.toNat = i) ∧
      (∀ (stops : Option Bucket → Bool) (d : Nat), d < size.toNat →
        (∀ e < d, stops (slotRead slots (cur e).pos.toNat) = false) →
        stops (slotRead slots (cur d).pos.toNat) = true →
        probeLoop stops slots size size.toNat start = (cur d, some (slotRead slots (cur d).pos.toNat))) ∧
      probeLoop (fun _ => false) slots size size.toNat start = (cur size.toNat, none) ∧
      (cur size.toNat).pos = start.start ∧ (cur size.toNat).cnt = size

/-- `spec/42_hashtable.md` R177: PUT on a live table completes with the bucket (hashA, hashB, value) in the first empty slot
of the key's probe path, LEN one more and that slot's index as the answer; every other slot, every other context and
everything else are unchanged but for the working registers it is said to write.
What the working registers are left with is log entry 6. -/
def Obligations.PutFillsFirstEmptySlot : Prop :=
  ∀ (tid : TableId) (value : Word) (key : Key) (s : State) (d : Nat), s.fault = false → s.genDone = true →
    s.live tid = true → d < (s.table tid).size.toNat → InsertPasses s tid key d → pathRecord s tid key d = none →
    let p := pathPos (keyHash s.ct .id key) (s.table tid).size d
    ∃ t, exec (.put tid value key) s = .next t ∧
      slotRead (t.table tid).slots p = some ⟨keyHash s.ct .a key, keyHash s.ct .b key, value⟩ ∧
      (∀ i, i ≠ p → slotRead (t.table tid).slots i = slotRead (s.table tid).slots i) ∧
      (t.table tid).valid = true ∧ (t.table tid).size = (s.table tid).size ∧
      (t.table tid).len = (s.table tid).len + 1#32 ∧
      t = ({ ((s.loadHeader (.put tid)).loadArg value).probed tid key d with
              tables := s.tables.set tid.toNat (t.table tid) }).answer (okResponse (BitVec.ofNat 32 p))

/-- `spec/42_hashtable.md` R177: when every slot is occupied PUT completes with (CAPACITY_EXHAUSTED, 0), the table as it was
and the probe back at START.
What the working registers are left with is log entry 6. -/
def Obligations.PutFailsAfterWholeTurn : Prop :=
  ∀ (tid : TableId) (value : Word) (key : Key) (s : State), s.fault = false → s.genDone = true → s.live tid = true →
    0 < (s.table tid).size.toNat → InsertPasses s tid key (s.table tid).size.toNat →
    exec (.put tid value key) s =
      .next ((((s.loadHeader (.put tid)).loadArg value).probed tid key (s.table tid).size.toNat).answer
        ⟨.capacityExhausted, 0#32, []⟩)

/-- `spec/42_hashtable.md` R179, `spec/60_exceptions.md` R242: on a live table that meets R42, PUT completes, with
CAPACITY_EXHAUSTED (status 2) exactly when LEN[t] = SIZE[t], the contexts then unchanged, and with OK (status 0)
otherwise. -/
def Obligations.PutExhaustedExactlyWhenFull : Prop :=
  ∀ (tid : TableId) (value : Word) (key : Key) (s : State), s.fault = false → s.genDone = true → s.live tid = true →
    ContextOk s.slotDepth (s.table tid) →
    ∃ t, exec (.put tid value key) s = .next t ∧
      ((s.table tid).len = (s.table tid).size →
        statusBetween s t = some 2#32 ∧ resultBetween s t = some 0#32 ∧ t.tables = s.tables) ∧
      ((s.table tid).len ≠ (s.table tid).size → statusBetween s t = some 0#32)

/-- `spec/42_hashtable.md` R185, R186: GET on a live table completes with the value of the first bucket on the path that
carries the key's pair, with NOT_FOUND at the first empty slot, or with NOT_FOUND after a whole turn; it changes no
slot, no context and nothing else but the working registers it is said to write.
What the working registers are left with is log entry 6. -/
def Obligations.GetFollowsProbePath : Prop :=
  ∀ (tid : TableId) (key : Key) (s : State), s.fault = false → s.genDone = true → s.live tid = true →
    (∀ d < (s.table tid).size.toNat, LookupPasses s tid key d →
      (∀ b, pathRecord s tid key d = some b → CarriesPair s key b →
        exec (.get tid key) s = .next (((s.loadHeader (.get tid)).probed tid key d).answer (okResponse b.value))) ∧
      (pathRecord s tid key d = none →
        exec (.get tid key) s =
          .next (((s.loadHeader (.get tid)).probed tid key d).answer ⟨.notFound, 0#32, []⟩))) ∧
    (0 < (s.table tid).size.toNat → LookupPasses s tid key (s.table tid).size.toNat →
      exec (.get tid key) s =
        .next (((s.loadHeader (.get tid)).probed tid key (s.table tid).size.toNat).answer ⟨.notFound, 0#32, []⟩))

/-- `spec/42_hashtable.md` R191: DEL on a live table completes: at the first bucket on the path that carries the key's pair it
empties that slot, takes one from LEN and answers the value; at an empty slot or after a whole turn it answers
NOT_FOUND and changes no context; every other slot, every other context and everything else are unchanged but for the
working registers it is said to write.
What the working registers are left with is log entry 6. -/
def Obligations.DelFollowsProbePath : Prop :=
  ∀ (tid : TableId) (key : Key) (s : State), s.fault = false → s.genDone = true → s.live tid = true →
    (∀ d < (s.table tid).size.toNat, LookupPasses s tid key d →
      (∀ b, pathRecord s tid key d = some b → CarriesPair s key b →
        let p := pathPos (keyHash s.ct .id key) (s.table tid).size d
        ∃ t, exec (.del tid key) s = .next t ∧
          slotRead (t.table tid).slots p = none ∧
          (∀ i, i ≠ p → slotRead (t.table tid).slots i = slotRead (s.table tid).slots i) ∧
          (t.table tid).valid = true ∧ (t.table tid).size = (s.table tid).size ∧
          (t.table tid).len = (s.table tid).len - 1#32 ∧
          t = ({ (s.loadHeader (.del tid)).probed tid key d with
                  tables := s.tables.set tid.toNat (t.table tid) }).answer (okResponse b.value)) ∧
      (pathRecord s tid key d = none →
        exec (.del tid key) s =
          .next (((s.loadHeader (.del tid)).probed tid key d).answer ⟨.notFound, 0#32, []⟩))) ∧
    (0 < (s.table tid).size.toNat → LookupPasses s tid key (s.table tid).size.toNat →
      exec (.del tid key) s =
        .next (((s.loadHeader (.del tid)).probed tid key (s.table tid).size.toNat).answer ⟨.notFound, 0#32, []⟩))

/-- `spec/42_hashtable.md` R205, first row, with its precondition (`spec/90_conflicts.md` C1): right after a successful PUT of
`key` that passed `d` slots, GET of `key` finds the new value if none of those slots carries the key's pair, and
otherwise the value of the first of them that does. -/
def Obligations.GetAfterPut : Prop :=
  ∀ (tid : TableId) (value : Word) (key : Key) (s t : State), s.fault = false → s.genDone = true → s.live tid = true →
    exec (.put tid value key) s = .next t → statusBetween s t = some 0#32 →
    ∃ d u, InsertPasses s tid key d ∧ pathRecord s tid key d = none ∧ exec (.get tid key) t = .next u ∧
      statusBetween t u = some 0#32 ∧
      (LookupPasses s tid key d → resultBetween t u = some value) ∧
      ∀ e < d, LookupPasses s tid key e → ∀ b, pathRecord s tid key e = some b → CarriesPair s key b →
        resultBetween t u = some b.value

/-- `spec/42_hashtable.md` R205, second row, R191 (`spec/90_conflicts.md` C3): after any DEL of `key` on a live table,
successful or not, GET of the same key is NOT_FOUND, without exception, and so is a second DEL. -/
def Obligations.GetAfterDelIsNotFound : Prop :=
  ∀ (tid : TableId) (key : Key) (s t : State), s.fault = false → s.genDone = true → s.live tid = true →
    exec (.del tid key) s = .next t →
    (∃ u, exec (.get tid key) t = .next u ∧ statusBetween t u = some 1#32 ∧ SameArch t u) ∧
      ∃ u, exec (.del tid key) t = .next u ∧ statusBetween t u = some 1#32 ∧ SameArch t u

/-- `spec/70_reset_and_hazards.md` R291: a bucket that `key` reaches `d` slots from START becomes unreachable for GET and
DEL when a DEL of another key empties an earlier slot of the path, while GETINDEX still answers its value. -/
def Obligations.DeletionBreaksProbeChains : Prop :=
  ∀ (tid : TableId) (key other : Key) (s t : State) (d e : Nat) (b : Bucket), s.fault = false → s.genDone = true →
    s.live tid = true → d < (s.table tid).size.toNat → LookupPasses s tid key d → pathRecord s tid key d = some b →
    CarriesPair s key b → e < d → exec (.del tid other) s = .next t → statusBetween s t = some 0#32 →
    pathRecord t tid key e = none →
    (∃ u, exec (.get tid key) t = .next u ∧ statusBetween t u = some 1#32) ∧
      (∃ u, exec (.del tid key) t = .next u ∧ statusBetween t u = some 1#32) ∧
      ∃ u, exec (.getindex tid (BitVec.ofNat 32 (pathPos (keyHash s.ct .id key) (s.table tid).size d))) t = .next u ∧
        statusBetween t u = some 0#32 ∧ resultBetween t u = some b.value

/-- `spec/42_hashtable.md` R186, `spec/70_reset_and_hazards.md` R293: the key's bytes play no part in a table command: two
keys with the same three hashes get the same answer from PUT, GET and DEL, which leave the same contexts. -/
def Obligations.EqualHashesAreOneKey : Prop :=
  ∀ (tid : TableId) (value : Word) (key key' : Key) (s : State), s.fault = false →
    (∀ c, keyHash s.ct c key = keyHash s.ct c key') →
    (∃ t t', exec (.get tid key) s = .next t ∧ exec (.get tid key') s = .next t' ∧ t.rsp = t'.rsp ∧ t.tables = t'.tables) ∧
      (∃ t t', exec (.del tid key) s = .next t ∧ exec (.del tid key') s = .next t' ∧ t.rsp = t'.rsp ∧
        t.tables = t'.tables) ∧
      ∃ t t', exec (.put tid value key) s = .next t ∧ exec (.put tid value key') s = .next t' ∧ t.rsp = t'.rsp ∧
        t.tables = t'.tables

/-! ## GETINDEX, LEN, RELEASE -/

/-- `spec/42_hashtable.md` R188, `spec/60_exceptions.md` R243: GETINDEX on a live table completes: INVALID_INDEX exactly when
the index, unsigned, is at or beyond SIZE[t]; else NOT_FOUND for an empty slot; else the value; nothing but OPC and ARG is
written.
What the working registers are left with is log entry 6. -/
def Obligations.GetindexReadsOneSlot : Prop :=
  ∀ (tid : TableId) (idx : Word) (s : State), s.fault = false → s.live tid = true →
    let s1 := (s.loadHeader (.getindex tid)).loadArg idx
    exec (.getindex tid idx) s =
      .next (s1.answer
        (if (s.table tid).size.toNat ≤ idx.toNat then ⟨.invalidIndex, 0#32, []⟩
          else
            match slotRead (s.table tid).slots idx.toNat with
            | none => ⟨.notFound, 0#32, []⟩
            | some b => ⟨.ok, b.value, []⟩))

/-- `spec/42_hashtable.md` R195, `spec/60_exceptions.md` R244: LEN completes for every table id: (OK, LEN[t]) when the
reference is live, (BAD_TABLE, 0xFFFFFFFF) when it is not; nothing but OPC is written.
What the working registers are left with is log entry 6. -/
def Obligations.LenAnswersCountOrBadTable : Prop :=
  ∀ (tid : TableId) (s : State), s.fault = false →
    exec (.len tid) s =
      .next ((s.loadHeader (.len tid)).answer
        (if tid.toNat < s.ntab ∧ (s.table tid).valid = true then ⟨.ok, (s.table tid).len, []⟩
          else ⟨.badTable, 0xFFFFFFFF#32, []⟩))

/-- `spec/42_hashtable.md` R200, R201: RELEASE on a live table completes with the context no longer live; with `cb` it answers
the values of the occupied slots, each exactly once, in some order, without `cb` none; the other contexts, CT and
everything else are unchanged but for the working registers it is said to write and the model's counter of choices.
What the working registers are left with is log entry 6. -/
def Obligations.ReleaseHandsBackValues : Prop :=
  ∀ (tid : TableId) (cb : Bool) (s : State), s.fault = false → s.live tid = true →
    ∃ (t : State) (vals : List Word), exec (.release tid cb) s = .next t ∧
      vals.Perm (if cb = true then
        ((List.range (s.table tid).size.toNat).filterMap fun i => slotRead (s.table tid).slots i).map Bucket.value
        else []) ∧
      (t.table tid).valid = false ∧
      t = ({ ((s.loadHeader (.release tid cb)).loadPos (s.table tid).size).loadVals [] with
              tables := s.tables.set tid.toNat (t.table tid)
              choices := s.choices + 1 }).answer ⟨.ok, BitVec.ofNat 32 vals.length, vals⟩

/-- `spec/30_encoding.md` R112, `spec/42_hashtable.md` R200: on a live table that meets R42, the count RELEASE answers is
LEN[t] with `cb` and 0 without. -/
def Obligations.ReleaseCountIsLen : Prop :=
  ∀ (tid : TableId) (cb : Bool) (s : State), s.fault = false → s.live tid = true →
    ContextOk s.slotDepth (s.table tid) →
    ∃ t, exec (.release tid cb) s = .next t ∧ statusBetween s t = some 0#32 ∧
      resultBetween s t = some (if cb = true then (s.table tid).len else 0#32)

/-- `spec/42_hashtable.md` R201: the order of RELEASE's values is not fixed: every permutation of a list of values is the
one that some free choice gives (the model's own way of leaving the order open, log entry 4). -/
def Obligations.EveryReleaseOrderIsAllowed : Prop :=
  ∀ (vals out : List Word), vals.Perm out → ∃ pick : Nat → Nat, permuteBy pick vals.length 0 vals = out

/-- `spec/42_hashtable.md` R202: after RELEASE the reference is no longer live: PUT, GET, GETINDEX, DEL and RELEASE on it
raise FC_BAD_TABLE (PUT, GET and DEL given GEN_DONE = 1), LEN answers BAD_TABLE, and CREATE of it with a legal size
succeeds again.
What the working registers are left with is log entry 6. -/
def Obligations.ReleasedTableIsNoReference : Prop :=
  ∀ (tid : TableId) (cb : Bool) (s t : State), s.fault = false → s.live tid = true →
    exec (.release tid cb) s = .next t →
    (∀ (value idx : Word) (key : Key) (cb' : Bool), ∀ i ∈ [Instr.put tid value key, .get tid key, .getindex tid idx,
        .del tid key, .release tid cb'],
      (s.genDone = true ∨ (headerOf i).hasKey = false) →
        exec i t = .next ((t.loadHeader (headerOf i)).die .badTable)) ∧
      (∃ u, exec (.len tid) t = .next u ∧ u.fault = false ∧ statusBetween t u = some 4#32 ∧
        resultBetween t u = some 0xFFFFFFFF#32) ∧
      ∀ size : Word, size ≠ 0#32 → size.msb = false → size.toNat ≤ s.slotDepth →
        ∃ u, exec (.create tid size) t = .next u ∧ u.fault = false ∧ u.live tid = true

/-! ## Faults, statuses, responses -/

/-- `spec/60_exceptions.md` R245, R246, R255, `spec/42_hashtable.md` R170, R171: which fault a command raises, the first check
that fails deciding; and a command with no failing check completes without the fault.
What the working registers are left with is log entry 6. -/
def Obligations.FaultCauseByPriority : Prop :=
  ∀ (i : Instr) (s : State), s.fault = false →
    let badTable : TableId → Prop := fun tid => s.ntab ≤ tid.toNat ∨ (s.table tid).valid = false
    let causeIs : Cause → Prop := fun c =>
      match i with
      | .generate => False
      | .hash _ _ => s.genDone = false ∧ c = .notGenerated
      | .create tid size =>
        (s.ntab ≤ tid.toNat ∧ c = .badTable) ∨
          (tid.toNat < s.ntab ∧ (s.table tid).valid = true ∧ c = .tableLive) ∨
          (tid.toNat < s.ntab ∧ (s.table tid).valid = false ∧ (size = 0#32 ∨ size.msb = true) ∧ c = .size) ∨
          (tid.toNat < s.ntab ∧ (s.table tid).valid = false ∧ ¬ (size = 0#32 ∨ size.msb = true) ∧
            s.slotDepth < size.toNat ∧ c = .depth)
      | .put tid _ _ =>
        (s.genDone = false ∧ c = .notGenerated) ∨ (s.genDone = true ∧ badTable tid ∧ c = .badTable)
      | .get tid _ =>
        (s.genDone = false ∧ c = .notGenerated) ∨ (s.genDone = true ∧ badTable tid ∧ c = .badTable)
      | .getindex tid _ => badTable tid ∧ c = .badTable
      | .del tid _ =>
        (s.genDone = false ∧ c = .notGenerated) ∨ (s.genDone = true ∧ badTable tid ∧ c = .badTable)
      | .len _ => False
      | .release tid _ => badTable tid ∧ c = .badTable
    (∀ c, causeIs c → ∃ a, exec i s = .next ((((s.loadHeader (headerOf i)).loadArg a)).die c)) ∧
      ((∀ c, ¬ causeIs c) → ∃ t, exec i s = .next t ∧ t.fault = false)

/-- `spec/60_exceptions.md` R250: fault entry is precise: a command that raises the fault sets FAULT and writes FCAUSE, sends
status 5 with the cause, leaves the block in DEAD, and leaves GEN_DONE, CT, every context and everything else but OPC and
ARG as they were. -/
def Obligations.FaultsArePrecise : Prop :=
  ∀ (i : Instr) (s t : State), s.fault = false → exec i s = .next t → t.fault = true →
    ∃ c, t = { s with
      opc := t.opc
      arg := t.arg
      fault := true
      fcause := causeCode c
      rsp := s.rsp ++ [5#8, 0#8, 0#8, 0#8] ++ bytesOfWord ((causeCode c).setWidth 32)
      tx := []
      phase := .dead } ∧ 1#4 ≤ causeCode c ∧ causeCode c ≤ 6#4

/-- `spec/60_exceptions.md` R251: while FAULT = 1 no command runs; a block in DEAD accepts no byte, sends none, takes no step
and keeps all its state until reset. -/
def Obligations.DeadBlockTakesNoStep : Prop :=
  (∀ (i : Instr) (s : State), s.fault = true → exec i s = .fault .dead) ∧
    (∀ s : State, s.fault = true → s.phase = .idle ∨ s.phase = .dead → step s = .fault .dead) ∧
    ∀ s : State, s.phase = .dead →
      cmdReady s = false ∧ rspValid s = false ∧ step s = .fault .dead ∧ ∀ p : Pins, p.rst = false → tick p s = s

/-- `spec/60_exceptions.md` R252: nothing but reset clears the fault, and FCAUSE names the first and only one: a tick without
`rst` from a state of the invariant keeps both, and reset clears both. -/
def Obligations.FaultIsClearedOnlyByReset : Prop :=
  ∀ (p : Pins) (s : State), Inv s → s.fault = true →
    (p.rst = false → (tick p s).fault = true ∧ (tick p s).fcause = s.fcause) ∧
      (p.rst = true → (tick p s).fault = false ∧ (tick p s).fcause = 0#4)

/-- `spec/60_exceptions.md` R240: a command ends in exactly one of three ways: status OK; a result status, which changes no
architectural state and after which the block accepts the next command; or the fatal fault, after which it takes no
step. -/
def Obligations.CommandsEndInThreeWays : Prop :=
  ∀ (i : Instr) (s t : State), s.fault = false → exec i s = .next t →
    (statusBetween s t = some 0#32 ∧ t.fault = false ∧ t.phase = .idle) ∨
      ((∃ st ∈ [1#32, 2#32, 3#32, 4#32], statusBetween s t = some st) ∧ SameArch s t ∧ t.phase = .idle) ∨
      (statusBetween s t = some 5#32 ∧ t.fault = true ∧ t.phase = .dead ∧ step t = .fault .dead)

/-- `spec/30_encoding.md` R110: each command sends exactly one response packet: status word, result word, and value words
only for a RELEASE that ended OK, as many as its result says; `S[31:4]` is zero. -/
def Obligations.EveryCommandSendsOneResponse : Prop :=
  ∀ (i : Instr) (s t : State), exec i s = .next t →
    ∃ (st res : Word) (vals : List Word),
      t.rsp = s.rsp ++ bytesOfWord st ++ bytesOfWord res ++ vals.flatMap bytesOfWord ∧
        st.toNat ≤ 5 ∧ t.tx = [] ∧
        (vals ≠ [] → ∃ tid, i = .release tid true) ∧
        (∀ tid cb, i = .release tid cb → st = 0#32 → res = BitVec.ofNat 32 vals.length) ∧
        (st ≠ 0#32 → vals = [])

/-! ## What commands leave alone, and whole runs -/

/-- `spec/10_state.md` R42 d: every occupied slot of a live table holds what a PUT put there, unchanged: after any command it
is a slot that held the same bucket in the same live table before, or the command was the PUT that wrote it. -/
def Obligations.OccupiedSlotsComeFromPut : Prop :=
  ∀ (i : Instr) (s t : State) (tid : TableId) (n : Nat) (b : Bucket), exec i s = .next t → t.live tid = true →
    n < (t.table tid).size.toNat → slotRead (t.table tid).slots n = some b →
    (s.live tid = true ∧ (s.table tid).size = (t.table tid).size ∧ slotRead (s.table tid).slots n = some b) ∨
      ∃ value key, i = .put tid value key ∧ b = ⟨keyHash s.ct .a key, keyHash s.ct .b key, value⟩

/-- `spec/42_hashtable.md` R195, R205: over a safe run that begins with CREATE of table `tid` and holds no other CREATE or
RELEASE of it, LEN is the number of successful PUTs minus the number of successful DELs on it. -/
def Obligations.LenCountsPutsMinusDels : Prop :=
  ∀ (tid : TableId) (size : Word) (is : List Instr) (s t : State), ArchInv s →
    SafeRun (.create tid size :: is) s t → (∀ n, Instr.create tid n ∉ is) → (∀ cb, Instr.release tid cb ∉ is) →
    ((t.table tid).len.toNat : Int) = netInsertions tid (.create tid size :: is) s

/-- `spec/20_memory.md` R71, `spec/42_hashtable.md` R202: a command reaches only the context its `tid` names: every other one
is the same after it. -/
def Obligations.OtherTablesUntouched : Prop :=
  ∀ (i : Instr) (s t : State) (k : Nat), exec i s = .next t → (∀ tid, i.table? = some tid → tid.toNat ≠ k) →
    t.tables[k]? = s.tables[k]?

/-- `spec/10_state.md` R25, R37: CT and GEN_DONE are written by GENERATE only, and by no GENERATE that finds GEN_DONE = 1. R23
says the same of LSEED, I1 and PASS; that they keep their values between commands is the model's: log entry 6. -/
def Obligations.CtWrittenOnlyByFirstGenerate : Prop :=
  ∀ (i : Instr) (s t : State), exec i s = .next t → (i ≠ .generate ∨ s.genDone = true) →
    t.ct = s.ct ∧ t.genDone = s.genDone ∧ t.gen = s.gen

/-- `spec/10_state.md` R22 (that the parameters are carried in the state is the model's choice, log entry 1): NTAB, SLOT_DEPTH
and the variant CT_HARDWIRED are parameters: no step and no tick, reset included, changes them. -/
def Obligations.ParametersNeverChange : Prop :=
  (∀ s t : State, step s = .next t → t.params = s.params) ∧ ∀ (p : Pins) (s : State), (tick p s).params = s.params

/-! ## Reset and the invariant -/

/-- `spec/10_state.md` R44, `spec/70_reset_and_hazards.md` R280, R281: whatever the block was doing, reset leaves GEN_DONE = 0
(1 in the variant of R139), FAULT = 0, FCAUSE = 0, every context not live, the phase IDLE and no part of a packet or
response; and so does `State.reset`. -/
def Obligations.ResetAbandonsEverything : Prop :=
  (∀ (p : Pins) (s : State), p.rst = true →
    (tick p s).genDone = s.ctHardwired ∧ (tick p s).fault = false ∧ (tick p s).fcause = 0#4 ∧
      (tick p s).tables.length = s.tables.length ∧ (∀ c ∈ (tick p s).tables, c.valid = false) ∧
      (tick p s).phase = .idle ∧ (tick p s).rx = 0#2 ∧ (tick p s).tx = [] ∧ (tick p s).vals = []) ∧
    (State.reset.genDone = false ∧ State.reset.fault = false ∧ State.reset.fcause = 0#4 ∧
      (∀ c ∈ State.reset.tables, c.valid = false) ∧ State.reset.phase = .idle)

/-- `spec/10_state.md` R42: the invariant holds right after reset, for all parameters in their ranges, the variant of
`spec/40_crypttable.md` R139 included. -/
def Obligations.InvHoldsAtReset : Prop :=
  Inv State.reset ∧ ∀ p : Config.Params, p.legal → Inv (State.resetWith p)

/-- `spec/10_state.md` R42 (a), (b), (c), (e): every step keeps the invariant, from every state that meets it, whether the
step is a whole command or one tick of the controller. -/
def Obligations.EveryStepKeepsInv : Prop :=
  ∀ s t : State, Inv s → step s = .next t → Inv t

/-- `spec/10_state.md` R42, `spec/43_controller.md` R225: every clock edge keeps the invariant, whatever the host drives on the
input ports, reset included. -/
def Obligations.EveryTickKeepsInv : Prop :=
  ∀ (p : Pins) (s : State), Inv s → Inv (tick p s)

/-! ## The controller and the variant -/

/-- `spec/43_controller.md` R221, R225 to R232: the controller refines the commands: from a state between commands, with a
packet on the channel, the phases reach, within the packet's bytes, the loop's iterations and the response's bytes, the
very state that the command as one atomic function reaches; after a fault only the bytes still on the channel may
differ (V9). The two views and their working registers are the model's: log entries 6, 7 and 10. -/
def Obligations.ControllerRunsCommand : Prop :=
  ∀ (i : Instr) (rest : List Byte) (s : State), i.wf = true → Ready s → s.cmd = encode i ++ rest →
    ∃ n t, step s = .next t ∧
      n ≤ (encode i).length + loopIterations i s + (t.rsp.length - s.rsp.length) ∧
      advanceMany n s = { t with cmd := (advanceMany n s).cmd } ∧
      (t.fault = false → (advanceMany n s).cmd = rest)

/-- `spec/30_encoding.md` R101, `spec/43_controller.md` R226: the controller rejects an illegal header as the step does: four
bytes received, eight response bytes sent, DEAD. -/
def Obligations.ControllerRejectsIllegalHeader : Prop :=
  ∀ (w : Word) (why : IllegalHeader) (rest : List Byte) (s : State), Ready s → s.cmd = bytesOfWord w ++ rest →
    decodeHeader w = .error why → step s = .next (advanceMany 12 s) ∧ (advanceMany 12 s).phase = .dead

/-- `spec/43_controller.md` R223: `cmd_ready` is 1 only in the phases that receive packet bytes, `rsp_valid` only in RESP, and
a phase that waits for the host waits with no change of state. -/
def Obligations.HandshakeWaits : Prop :=
  ∀ s : State,
    (cmdReady s = true → s.phase = .idle ∨ s.phase = .recvH ∨ s.phase = .recvA ∨ s.phase = .key) ∧
      (rspValid s = true → s.phase = .resp) ∧
      ∀ p : Pins, p.rst = false →
        (cmdReady s = true → p.cmdValid = false → tick p s = s) ∧
          (s.phase = .resp → p.rspReady = false → tick p s = s)

/-- `spec/40_crypttable.md` R139: the mask-ROM variant and the decided form behave identically for every program that issues
GENERATE first: both runs complete or neither, with the same bytes on the response channel and the same contexts. That the
two runs release in the same order and leave the same released contexts rests on the one counter of free choices that
both begin with (log entries 4 and 5), and that contexts never created are the same rests on their reset values (log
entry 2). -/
def Obligations.HardwiredTableIsEquivalent : Prop :=
  ∀ (p : Config.Params) (is : List Instr),
    (runCommands (.generate :: is) (State.resetWith { p with ctHardwired := true })).map
        (fun t => (t.rsp, t.tables, t.fault, t.fcause, t.genDone)) =
      (runCommands (.generate :: is) (State.resetWith { p with ctHardwired := false })).map
        fun t => (t.rsp, t.tables, t.fault, t.fcause, t.genDone)

/-! ## The document's testable properties -/

/-- `spec/42_hashtable.md` R205, its six rows with their preconditions, in every state with FAULT = 0 that meets R42: on a live
table after generation, PUT then GET with spare capacity, DEL then GET, and PUT on a full table; the count LEN answers;
CREATE of 0 and -1 on a free context; RELEASE with the callback. -/
def Obligations.TestableProperties : Prop :=
  ∀ (tid : TableId) (s : State), ArchInv s → s.fault = false →
    (∀ (value : Word) (key : Key), s.genDone = true → s.live tid = true →
      ((s.table tid).len ≠ (s.table tid).size → PutThenGet s tid value key) ∧ DelThenGet s tid key ∧
        PutExhaustedIffFull s tid value key) ∧
      LenIsPutsMinusDels s tid ∧
      (tid.toNat < s.ntab → (s.table tid).valid = false → CreateNonPositiveFaults s tid) ∧
      (s.live tid = true → ReleaseEmitsEachValueOnce s tid)
end

