-- ==== Sys2Proof/Laws/State.lean ====
section
/-! SUPPORT. One lemma per field per named update of the state, true by `rfl`, so that no later proof unfolds a record
update; and what the updates do to a table context that is read back. -/

namespace Sys2Proof.Machine

/-! ## `State.setTable` -/

@[simp] theorem State.setTable_slotDepth (s : State) (tid : TableId) (c : Context) : (s.setTable tid c).slotDepth = s.slotDepth := rfl
@[simp] theorem State.setTable_ctHardwired (s : State) (tid : TableId) (c : Context) : (s.setTable tid c).ctHardwired = s.ctHardwired := rfl
@[simp] theorem State.setTable_genDone (s : State) (tid : TableId) (c : Context) : (s.setTable tid c).genDone = s.genDone := rfl
@[simp] theorem State.setTable_ct (s : State) (tid : TableId) (c : Context) : (s.setTable tid c).ct = s.ct := rfl
@[simp] theorem State.setTable_fault (s : State) (tid : TableId) (c : Context) : (s.setTable tid c).fault = s.fault := rfl
@[simp] theorem State.setTable_fcause (s : State) (tid : TableId) (c : Context) : (s.setTable tid c).fcause = s.fcause := rfl
@[simp] theorem State.setTable_tables (s : State) (tid : TableId) (c : Context) : (s.setTable tid c).tables = s.tables.set tid.toNat c := rfl
@[simp] theorem State.setTable_gen (s : State) (tid : TableId) (c : Context) : (s.setTable tid c).gen = s.gen := rfl
@[simp] theorem State.setTable_lanes (s : State) (tid : TableId) (c : Context) : (s.setTable tid c).lanes = s.lanes := rfl
@[simp] theorem State.setTable_cur (s : State) (tid : TableId) (c : Context) : (s.setTable tid c).cur = s.cur := rfl
@[simp] theorem State.setTable_opc (s : State) (tid : TableId) (c : Context) : (s.setTable tid c).opc = s.opc := rfl
@[simp] theorem State.setTable_arg (s : State) (tid : TableId) (c : Context) : (s.setTable tid c).arg = s.arg := rfl
@[simp] theorem State.setTable_phase (s : State) (tid : TableId) (c : Context) : (s.setTable tid c).phase = s.phase := rfl
@[simp] theorem State.setTable_rx (s : State) (tid : TableId) (c : Context) : (s.setTable tid c).rx = s.rx := rfl
@[simp] theorem State.setTable_vals (s : State) (tid : TableId) (c : Context) : (s.setTable tid c).vals = s.vals := rfl
@[simp] theorem State.setTable_tx (s : State) (tid : TableId) (c : Context) : (s.setTable tid c).tx = s.tx := rfl
@[simp] theorem State.setTable_cmd (s : State) (tid : TableId) (c : Context) : (s.setTable tid c).cmd = s.cmd := rfl
@[simp] theorem State.setTable_rsp (s : State) (tid : TableId) (c : Context) : (s.setTable tid c).rsp = s.rsp := rfl
@[simp] theorem State.setTable_choices (s : State) (tid : TableId) (c : Context) : (s.setTable tid c).choices = s.choices := rfl

/-! ## `State.loadHeader` -/

@[simp] theorem State.loadHeader_slotDepth (s : State) (h : Header) : (s.loadHeader h).slotDepth = s.slotDepth := rfl
@[simp] theorem State.loadHeader_ctHardwired (s : State) (h : Header) : (s.loadHeader h).ctHardwired = s.ctHardwired := rfl
@[simp] theorem State.loadHeader_genDone (s : State) (h : Header) : (s.loadHeader h).genDone = s.genDone := rfl
@[simp] theorem State.loadHeader_ct (s : State) (h : Header) : (s.loadHeader h).ct = s.ct := rfl
@[simp] theorem State.loadHeader_fault (s : State) (h : Header) : (s.loadHeader h).fault = s.fault := rfl
@[simp] theorem State.loadHeader_fcause (s : State) (h : Header) : (s.loadHeader h).fcause = s.fcause := rfl
@[simp] theorem State.loadHeader_tables (s : State) (h : Header) : (s.loadHeader h).tables = s.tables := rfl
@[simp] theorem State.loadHeader_gen (s : State) (h : Header) : (s.loadHeader h).gen = s.gen := rfl
@[simp] theorem State.loadHeader_lanes (s : State) (h : Header) : (s.loadHeader h).lanes = s.lanes := rfl
@[simp] theorem State.loadHeader_cur (s : State) (h : Header) : (s.loadHeader h).cur = s.cur := rfl
@[simp] theorem State.loadHeader_opc (s : State) (h : Header) : (s.loadHeader h).opc = encodeHeader h := rfl
@[simp] theorem State.loadHeader_arg (s : State) (h : Header) : (s.loadHeader h).arg = s.arg := rfl
@[simp] theorem State.loadHeader_phase (s : State) (h : Header) : (s.loadHeader h).phase = s.phase := rfl
@[simp] theorem State.loadHeader_rx (s : State) (h : Header) : (s.loadHeader h).rx = s.rx := rfl
@[simp] theorem State.loadHeader_vals (s : State) (h : Header) : (s.loadHeader h).vals = s.vals := rfl
@[simp] theorem State.loadHeader_tx (s : State) (h : Header) : (s.loadHeader h).tx = s.tx := rfl
@[simp] theorem State.loadHeader_cmd (s : State) (h : Header) : (s.loadHeader h).cmd = s.cmd := rfl
@[simp] theorem State.loadHeader_rsp (s : State) (h : Header) : (s.loadHeader h).rsp = s.rsp := rfl
@[simp] theorem State.loadHeader_choices (s : State) (h : Header) : (s.loadHeader h).choices = s.choices := rfl

/-! ## `State.loadArg` -/

@[simp] theorem State.loadArg_slotDepth (s : State) (a : Word) : (s.loadArg a).slotDepth = s.slotDepth := rfl
@[simp] theorem State.loadArg_ctHardwired (s : State) (a : Word) : (s.loadArg a).ctHardwired = s.ctHardwired := rfl
@[simp] theorem State.loadArg_genDone (s : State) (a : Word) : (s.loadArg a).genDone = s.genDone := rfl
@[simp] theorem State.loadArg_ct (s : State) (a : Word) : (s.loadArg a).ct = s.ct := rfl
@[simp] theorem State.loadArg_fault (s : State) (a : Word) : (s.loadArg a).fault = s.fault := rfl
@[simp] theorem State.loadArg_fcause (s : State) (a : Word) : (s.loadArg a).fcause = s.fcause := rfl
@[simp] theorem State.loadArg_tables (s : State) (a : Word) : (s.loadArg a).tables = s.tables := rfl
@[simp] theorem State.loadArg_gen (s : State) (a : Word) : (s.loadArg a).gen = s.gen := rfl
@[simp] theorem State.loadArg_lanes (s : State) (a : Word) : (s.loadArg a).lanes = s.lanes := rfl
@[simp] theorem State.loadArg_cur (s : State) (a : Word) : (s.loadArg a).cur = s.cur := rfl
@[simp] theorem State.loadArg_opc (s : State) (a : Word) : (s.loadArg a).opc = s.opc := rfl
@[simp] theorem State.loadArg_arg (s : State) (a : Word) : (s.loadArg a).arg = a := rfl
@[simp] theorem State.loadArg_phase (s : State) (a : Word) : (s.loadArg a).phase = s.phase := rfl
@[simp] theorem State.loadArg_rx (s : State) (a : Word) : (s.loadArg a).rx = s.rx := rfl
@[simp] theorem State.loadArg_vals (s : State) (a : Word) : (s.loadArg a).vals = s.vals := rfl
@[simp] theorem State.loadArg_tx (s : State) (a : Word) : (s.loadArg a).tx = s.tx := rfl
@[simp] theorem State.loadArg_cmd (s : State) (a : Word) : (s.loadArg a).cmd = s.cmd := rfl
@[simp] theorem State.loadArg_rsp (s : State) (a : Word) : (s.loadArg a).rsp = s.rsp := rfl
@[simp] theorem State.loadArg_choices (s : State) (a : Word) : (s.loadArg a).choices = s.choices := rfl

/-! ## `State.loadLanes` -/

@[simp] theorem State.loadLanes_slotDepth (s : State) (l : Lanes) : (s.loadLanes l).slotDepth = s.slotDepth := rfl
@[simp] theorem State.loadLanes_ctHardwired (s : State) (l : Lanes) : (s.loadLanes l).ctHardwired = s.ctHardwired := rfl
@[simp] theorem State.loadLanes_genDone (s : State) (l : Lanes) : (s.loadLanes l).genDone = s.genDone := rfl
@[simp] theorem State.loadLanes_ct (s : State) (l : Lanes) : (s.loadLanes l).ct = s.ct := rfl
@[simp] theorem State.loadLanes_fault (s : State) (l : Lanes) : (s.loadLanes l).fault = s.fault := rfl
@[simp] theorem State.loadLanes_fcause (s : State) (l : Lanes) : (s.loadLanes l).fcause = s.fcause := rfl
@[simp] theorem State.loadLanes_tables (s : State) (l : Lanes) : (s.loadLanes l).tables = s.tables := rfl
@[simp] theorem State.loadLanes_gen (s : State) (l : Lanes) : (s.loadLanes l).gen = s.gen := rfl
@[simp] theorem State.loadLanes_lanes (s : State) (l : Lanes) : (s.loadLanes l).lanes = l := rfl
@[simp] theorem State.loadLanes_cur (s : State) (l : Lanes) : (s.loadLanes l).cur = s.cur := rfl
@[simp] theorem State.loadLanes_opc (s : State) (l : Lanes) : (s.loadLanes l).opc = s.opc := rfl
@[simp] theorem State.loadLanes_arg (s : State) (l : Lanes) : (s.loadLanes l).arg = s.arg := rfl
@[simp] theorem State.loadLanes_phase (s : State) (l : Lanes) : (s.loadLanes l).phase = s.phase := rfl
@[simp] theorem State.loadLanes_rx (s : State) (l : Lanes) : (s.loadLanes l).rx = s.rx := rfl
@[simp] theorem State.loadLanes_vals (s : State) (l : Lanes) : (s.loadLanes l).vals = s.vals := rfl
@[simp] theorem State.loadLanes_tx (s : State) (l : Lanes) : (s.loadLanes l).tx = s.tx := rfl
@[simp] theorem State.loadLanes_cmd (s : State) (l : Lanes) : (s.loadLanes l).cmd = s.cmd := rfl
@[simp] theorem State.loadLanes_rsp (s : State) (l : Lanes) : (s.loadLanes l).rsp = s.rsp := rfl
@[simp] theorem State.loadLanes_choices (s : State) (l : Lanes) : (s.loadLanes l).choices = s.choices := rfl

/-! ## `State.loadCursor` -/

@[simp] theorem State.loadCursor_slotDepth (s : State) (c : Cursor) : (s.loadCursor c).slotDepth = s.slotDepth := rfl
@[simp] theorem State.loadCursor_ctHardwired (s : State) (c : Cursor) : (s.loadCursor c).ctHardwired = s.ctHardwired := rfl
@[simp] theorem State.loadCursor_genDone (s : State) (c : Cursor) : (s.loadCursor c).genDone = s.genDone := rfl
@[simp] theorem State.loadCursor_ct (s : State) (c : Cursor) : (s.loadCursor c).ct = s.ct := rfl
@[simp] theorem State.loadCursor_fault (s : State) (c : Cursor) : (s.loadCursor c).fault = s.fault := rfl
@[simp] theorem State.loadCursor_fcause (s : State) (c : Cursor) : (s.loadCursor c).fcause = s.fcause := rfl
@[simp] theorem State.loadCursor_tables (s : State) (c : Cursor) : (s.loadCursor c).tables = s.tables := rfl
@[simp] theorem State.loadCursor_gen (s : State) (c : Cursor) : (s.loadCursor c).gen = s.gen := rfl
@[simp] theorem State.loadCursor_lanes (s : State) (c : Cursor) : (s.loadCursor c).lanes = s.lanes := rfl
@[simp] theorem State.loadCursor_cur (s : State) (c : Cursor) : (s.loadCursor c).cur = c := rfl
@[simp] theorem State.loadCursor_opc (s : State) (c : Cursor) : (s.loadCursor c).opc = s.opc := rfl
@[simp] theorem State.loadCursor_arg (s : State) (c : Cursor) : (s.loadCursor c).arg = s.arg := rfl
@[simp] theorem State.loadCursor_phase (s : State) (c : Cursor) : (s.loadCursor c).phase = s.phase := rfl
@[simp] theorem State.loadCursor_rx (s : State) (c : Cursor) : (s.loadCursor c).rx = s.rx := rfl
@[simp] theorem State.loadCursor_vals (s : State) (c : Cursor) : (s.loadCursor c).vals = s.vals := rfl
@[simp] theorem State.loadCursor_tx (s : State) (c : Cursor) : (s.loadCursor c).tx = s.tx := rfl
@[simp] theorem State.loadCursor_cmd (s : State) (c : Cursor) : (s.loadCursor c).cmd = s.cmd := rfl
@[simp] theorem State.loadCursor_rsp (s : State) (c : Cursor) : (s.loadCursor c).rsp = s.rsp := rfl
@[simp] theorem State.loadCursor_choices (s : State) (c : Cursor) : (s.loadCursor c).choices = s.choices := rfl

/-! ## `State.loadPos` -/

@[simp] theorem State.loadPos_slotDepth (s : State) (pos : Word) : (s.loadPos pos).slotDepth = s.slotDepth := rfl
@[simp] theorem State.loadPos_ctHardwired (s : State) (pos : Word) : (s.loadPos pos).ctHardwired = s.ctHardwired := rfl
@[simp] theorem State.loadPos_genDone (s : State) (pos : Word) : (s.loadPos pos).genDone = s.genDone := rfl
@[simp] theorem State.loadPos_ct (s : State) (pos : Word) : (s.loadPos pos).ct = s.ct := rfl
@[simp] theorem State.loadPos_fault (s : State) (pos : Word) : (s.loadPos pos).fault = s.fault := rfl
@[simp] theorem State.loadPos_fcause (s : State) (pos : Word) : (s.loadPos pos).fcause = s.fcause := rfl
@[simp] theorem State.loadPos_tables (s : State) (pos : Word) : (s.loadPos pos).tables = s.tables := rfl
@[simp] theorem State.loadPos_gen (s : State) (pos : Word) : (s.loadPos pos).gen = s.gen := rfl
@[simp] theorem State.loadPos_lanes (s : State) (pos : Word) : (s.loadPos pos).lanes = s.lanes := rfl
@[simp] theorem State.loadPos_cur (s : State) (pos : Word) : (s.loadPos pos).cur = ⟨s.cur.start, pos, s.cur.cnt⟩ := rfl
@[simp] theorem State.loadPos_opc (s : State) (pos : Word) : (s.loadPos pos).opc = s.opc := rfl
@[simp] theorem State.loadPos_arg (s : State) (pos : Word) : (s.loadPos pos).arg = s.arg := rfl
@[simp] theorem State.loadPos_phase (s : State) (pos : Word) : (s.loadPos pos).phase = s.phase := rfl
@[simp] theorem State.loadPos_rx (s : State) (pos : Word) : (s.loadPos pos).rx = s.rx := rfl
@[simp] theorem State.loadPos_vals (s : State) (pos : Word) : (s.loadPos pos).vals = s.vals := rfl
@[simp] theorem State.loadPos_tx (s : State) (pos : Word) : (s.loadPos pos).tx = s.tx := rfl
@[simp] theorem State.loadPos_cmd (s : State) (pos : Word) : (s.loadPos pos).cmd = s.cmd := rfl
@[simp] theorem State.loadPos_rsp (s : State) (pos : Word) : (s.loadPos pos).rsp = s.rsp := rfl
@[simp] theorem State.loadPos_choices (s : State) (pos : Word) : (s.loadPos pos).choices = s.choices := rfl

/-! ## `State.loadVals` -/

@[simp] theorem State.loadVals_slotDepth (s : State) (vals : List Word) : (s.loadVals vals).slotDepth = s.slotDepth := rfl
@[simp] theorem State.loadVals_ctHardwired (s : State) (vals : List Word) : (s.loadVals vals).ctHardwired = s.ctHardwired := rfl
@[simp] theorem State.loadVals_genDone (s : State) (vals : List Word) : (s.loadVals vals).genDone = s.genDone := rfl
@[simp] theorem State.loadVals_ct (s : State) (vals : List Word) : (s.loadVals vals).ct = s.ct := rfl
@[simp] theorem State.loadVals_fault (s : State) (vals : List Word) : (s.loadVals vals).fault = s.fault := rfl
@[simp] theorem State.loadVals_fcause (s : State) (vals : List Word) : (s.loadVals vals).fcause = s.fcause := rfl
@[simp] theorem State.loadVals_tables (s : State) (vals : List Word) : (s.loadVals vals).tables = s.tables := rfl
@[simp] theorem State.loadVals_gen (s : State) (vals : List Word) : (s.loadVals vals).gen = s.gen := rfl
@[simp] theorem State.loadVals_lanes (s : State) (vals : List Word) : (s.loadVals vals).lanes = s.lanes := rfl
@[simp] theorem State.loadVals_cur (s : State) (vals : List Word) : (s.loadVals vals).cur = s.cur := rfl
@[simp] theorem State.loadVals_opc (s : State) (vals : List Word) : (s.loadVals vals).opc = s.opc := rfl
@[simp] theorem State.loadVals_arg (s : State) (vals : List Word) : (s.loadVals vals).arg = s.arg := rfl
@[simp] theorem State.loadVals_phase (s : State) (vals : List Word) : (s.loadVals vals).phase = s.phase := rfl
@[simp] theorem State.loadVals_rx (s : State) (vals : List Word) : (s.loadVals vals).rx = s.rx := rfl
@[simp] theorem State.loadVals_vals (s : State) (vals : List Word) : (s.loadVals vals).vals = vals := rfl
@[simp] theorem State.loadVals_tx (s : State) (vals : List Word) : (s.loadVals vals).tx = s.tx := rfl
@[simp] theorem State.loadVals_cmd (s : State) (vals : List Word) : (s.loadVals vals).cmd = s.cmd := rfl
@[simp] theorem State.loadVals_rsp (s : State) (vals : List Word) : (s.loadVals vals).rsp = s.rsp := rfl
@[simp] theorem State.loadVals_choices (s : State) (vals : List Word) : (s.loadVals vals).choices = s.choices := rfl

/-! ## `State.loadGen` -/

@[simp] theorem State.loadGen_slotDepth (s : State) (x : GenRegs × Memory Word) : (s.loadGen x).slotDepth = s.slotDepth := rfl
@[simp] theorem State.loadGen_ctHardwired (s : State) (x : GenRegs × Memory Word) : (s.loadGen x).ctHardwired = s.ctHardwired := rfl
@[simp] theorem State.loadGen_genDone (s : State) (x : GenRegs × Memory Word) : (s.loadGen x).genDone = s.genDone := rfl
@[simp] theorem State.loadGen_ct (s : State) (x : GenRegs × Memory Word) : (s.loadGen x).ct = x.2 := rfl
@[simp] theorem State.loadGen_fault (s : State) (x : GenRegs × Memory Word) : (s.loadGen x).fault = s.fault := rfl
@[simp] theorem State.loadGen_fcause (s : State) (x : GenRegs × Memory Word) : (s.loadGen x).fcause = s.fcause := rfl
@[simp] theorem State.loadGen_tables (s : State) (x : GenRegs × Memory Word) : (s.loadGen x).tables = s.tables := rfl
@[simp] theorem State.loadGen_gen (s : State) (x : GenRegs × Memory Word) : (s.loadGen x).gen = x.1 := rfl
@[simp] theorem State.loadGen_lanes (s : State) (x : GenRegs × Memory Word) : (s.loadGen x).lanes = s.lanes := rfl
@[simp] theorem State.loadGen_cur (s : State) (x : GenRegs × Memory Word) : (s.loadGen x).cur = s.cur := rfl
@[simp] theorem State.loadGen_opc (s : State) (x : GenRegs × Memory Word) : (s.loadGen x).opc = s.opc := rfl
@[simp] theorem State.loadGen_arg (s : State) (x : GenRegs × Memory Word) : (s.loadGen x).arg = s.arg := rfl
@[simp] theorem State.loadGen_phase (s : State) (x : GenRegs × Memory Word) : (s.loadGen x).phase = s.phase := rfl
@[simp] theorem State.loadGen_rx (s : State) (x : GenRegs × Memory Word) : (s.loadGen x).rx = s.rx := rfl
@[simp] theorem State.loadGen_vals (s : State) (x : GenRegs × Memory Word) : (s.loadGen x).vals = s.vals := rfl
@[simp] theorem State.loadGen_tx (s : State) (x : GenRegs × Memory Word) : (s.loadGen x).tx = s.tx := rfl
@[simp] theorem State.loadGen_cmd (s : State) (x : GenRegs × Memory Word) : (s.loadGen x).cmd = s.cmd := rfl
@[simp] theorem State.loadGen_rsp (s : State) (x : GenRegs × Memory Word) : (s.loadGen x).rsp = s.rsp := rfl
@[simp] theorem State.loadGen_choices (s : State) (x : GenRegs × Memory Word) : (s.loadGen x).choices = s.choices := rfl

/-! ## `State.setGenerated` -/

@[simp] theorem State.setGenerated_slotDepth (s : State) : (s.setGenerated).slotDepth = s.slotDepth := rfl
@[simp] theorem State.setGenerated_ctHardwired (s : State) : (s.setGenerated).ctHardwired = s.ctHardwired := rfl
@[simp] theorem State.setGenerated_genDone (s : State) : (s.setGenerated).genDone = true := rfl
@[simp] theorem State.setGenerated_ct (s : State) : (s.setGenerated).ct = s.ct := rfl
@[simp] theorem State.setGenerated_fault (s : State) : (s.setGenerated).fault = s.fault := rfl
@[simp] theorem State.setGenerated_fcause (s : State) : (s.setGenerated).fcause = s.fcause := rfl
@[simp] theorem State.setGenerated_tables (s : State) : (s.setGenerated).tables = s.tables := rfl
@[simp] theorem State.setGenerated_gen (s : State) : (s.setGenerated).gen = s.gen := rfl
@[simp] theorem State.setGenerated_lanes (s : State) : (s.setGenerated).lanes = s.lanes := rfl
@[simp] theorem State.setGenerated_cur (s : State) : (s.setGenerated).cur = s.cur := rfl
@[simp] theorem State.setGenerated_opc (s : State) : (s.setGenerated).opc = s.opc := rfl
@[simp] theorem State.setGenerated_arg (s : State) : (s.setGenerated).arg = s.arg := rfl
@[simp] theorem State.setGenerated_phase (s : State) : (s.setGenerated).phase = s.phase := rfl
@[simp] theorem State.setGenerated_rx (s : State) : (s.setGenerated).rx = s.rx := rfl
@[simp] theorem State.setGenerated_vals (s : State) : (s.setGenerated).vals = s.vals := rfl
@[simp] theorem State.setGenerated_tx (s : State) : (s.setGenerated).tx = s.tx := rfl
@[simp] theorem State.setGenerated_cmd (s : State) : (s.setGenerated).cmd = s.cmd := rfl
@[simp] theorem State.setGenerated_rsp (s : State) : (s.setGenerated).rsp = s.rsp := rfl
@[simp] theorem State.setGenerated_choices (s : State) : (s.setGenerated).choices = s.choices := rfl

/-! ## `State.nextChoice` -/

@[simp] theorem State.nextChoice_slotDepth (s : State) : (s.nextChoice).slotDepth = s.slotDepth := rfl
@[simp] theorem State.nextChoice_ctHardwired (s : State) : (s.nextChoice).ctHardwired = s.ctHardwired := rfl
@[simp] theorem State.nextChoice_genDone (s : State) : (s.nextChoice).genDone = s.genDone := rfl
@[simp] theorem State.nextChoice_ct (s : State) : (s.nextChoice).ct = s.ct := rfl
@[simp] theorem State.nextChoice_fault (s : State) : (s.nextChoice).fault = s.fault := rfl
@[simp] theorem State.nextChoice_fcause (s : State) : (s.nextChoice).fcause = s.fcause := rfl
@[simp] theorem State.nextChoice_tables (s : State) : (s.nextChoice).tables = s.tables := rfl
@[simp] theorem State.nextChoice_gen (s : State) : (s.nextChoice).gen = s.gen := rfl
@[simp] theorem State.nextChoice_lanes (s : State) : (s.nextChoice).lanes = s.lanes := rfl
@[simp] theorem State.nextChoice_cur (s : State) : (s.nextChoice).cur = s.cur := rfl
@[simp] theorem State.nextChoice_opc (s : State) : (s.nextChoice).opc = s.opc := rfl
@[simp] theorem State.nextChoice_arg (s : State) : (s.nextChoice).arg = s.arg := rfl
@[simp] theorem State.nextChoice_phase (s : State) : (s.nextChoice).phase = s.phase := rfl
@[simp] theorem State.nextChoice_rx (s : State) : (s.nextChoice).rx = s.rx := rfl
@[simp] theorem State.nextChoice_vals (s : State) : (s.nextChoice).vals = s.vals := rfl
@[simp] theorem State.nextChoice_tx (s : State) : (s.nextChoice).tx = s.tx := rfl
@[simp] theorem State.nextChoice_cmd (s : State) : (s.nextChoice).cmd = s.cmd := rfl
@[simp] theorem State.nextChoice_rsp (s : State) : (s.nextChoice).rsp = s.rsp := rfl
@[simp] theorem State.nextChoice_choices (s : State) : (s.nextChoice).choices = s.choices + 1 := rfl

/-! ## `State.enter` -/

@[simp] theorem State.enter_slotDepth (s : State) (p : Phase) : (s.enter p).slotDepth = s.slotDepth := rfl
@[simp] theorem State.enter_ctHardwired (s : State) (p : Phase) : (s.enter p).ctHardwired = s.ctHardwired := rfl
@[simp] theorem State.enter_genDone (s : State) (p : Phase) : (s.enter p).genDone = s.genDone := rfl
@[simp] theorem State.enter_ct (s : State) (p : Phase) : (s.enter p).ct = s.ct := rfl
@[simp] theorem State.enter_fault (s : State) (p : Phase) : (s.enter p).fault = s.fault := rfl
@[simp] theorem State.enter_fcause (s : State) (p : Phase) : (s.enter p).fcause = s.fcause := rfl
@[simp] theorem State.enter_tables (s : State) (p : Phase) : (s.enter p).tables = s.tables := rfl
@[simp] theorem State.enter_gen (s : State) (p : Phase) : (s.enter p).gen = s.gen := rfl
@[simp] theorem State.enter_lanes (s : State) (p : Phase) : (s.enter p).lanes = s.lanes := rfl
@[simp] theorem State.enter_cur (s : State) (p : Phase) : (s.enter p).cur = s.cur := rfl
@[simp] theorem State.enter_opc (s : State) (p : Phase) : (s.enter p).opc = s.opc := rfl
@[simp] theorem State.enter_arg (s : State) (p : Phase) : (s.enter p).arg = s.arg := rfl
@[simp] theorem State.enter_phase (s : State) (p : Phase) : (s.enter p).phase = p := rfl
@[simp] theorem State.enter_rx (s : State) (p : Phase) : (s.enter p).rx = s.rx := rfl
@[simp] theorem State.enter_vals (s : State) (p : Phase) : (s.enter p).vals = s.vals := rfl
@[simp] theorem State.enter_tx (s : State) (p : Phase) : (s.enter p).tx = s.tx := rfl
@[simp] theorem State.enter_cmd (s : State) (p : Phase) : (s.enter p).cmd = s.cmd := rfl
@[simp] theorem State.enter_rsp (s : State) (p : Phase) : (s.enter p).rsp = s.rsp := rfl
@[simp] theorem State.enter_choices (s : State) (p : Phase) : (s.enter p).choices = s.choices := rfl

/-! ## `State.hashKey` -/

@[simp] theorem State.hashKey_slotDepth (s : State) (key : Key) : (s.hashKey key).slotDepth = s.slotDepth := rfl
@[simp] theorem State.hashKey_ctHardwired (s : State) (key : Key) : (s.hashKey key).ctHardwired = s.ctHardwired := rfl
@[simp] theorem State.hashKey_genDone (s : State) (key : Key) : (s.hashKey key).genDone = s.genDone := rfl
@[simp] theorem State.hashKey_ct (s : State) (key : Key) : (s.hashKey key).ct = s.ct := rfl
@[simp] theorem State.hashKey_fault (s : State) (key : Key) : (s.hashKey key).fault = s.fault := rfl
@[simp] theorem State.hashKey_fcause (s : State) (key : Key) : (s.hashKey key).fcause = s.fcause := rfl
@[simp] theorem State.hashKey_tables (s : State) (key : Key) : (s.hashKey key).tables = s.tables := rfl
@[simp] theorem State.hashKey_gen (s : State) (key : Key) : (s.hashKey key).gen = s.gen := rfl
@[simp] theorem State.hashKey_lanes (s : State) (key : Key) : (s.hashKey key).lanes = lanesRun s.ct key := rfl
@[simp] theorem State.hashKey_cur (s : State) (key : Key) : (s.hashKey key).cur = s.cur := rfl
@[simp] theorem State.hashKey_opc (s : State) (key : Key) : (s.hashKey key).opc = s.opc := rfl
@[simp] theorem State.hashKey_arg (s : State) (key : Key) : (s.hashKey key).arg = s.arg := rfl
@[simp] theorem State.hashKey_phase (s : State) (key : Key) : (s.hashKey key).phase = s.phase := rfl
@[simp] theorem State.hashKey_rx (s : State) (key : Key) : (s.hashKey key).rx = s.rx := rfl
@[simp] theorem State.hashKey_vals (s : State) (key : Key) : (s.hashKey key).vals = s.vals := rfl
@[simp] theorem State.hashKey_tx (s : State) (key : Key) : (s.hashKey key).tx = s.tx := rfl
@[simp] theorem State.hashKey_cmd (s : State) (key : Key) : (s.hashKey key).cmd = s.cmd := rfl
@[simp] theorem State.hashKey_rsp (s : State) (key : Key) : (s.hashKey key).rsp = s.rsp := rfl
@[simp] theorem State.hashKey_choices (s : State) (key : Key) : (s.hashKey key).choices = s.choices := rfl

/-! ## `State.startProbe` -/

@[simp] theorem State.startProbe_slotDepth (s : State) (tid : TableId) : (s.startProbe tid).slotDepth = s.slotDepth := rfl
@[simp] theorem State.startProbe_ctHardwired (s : State) (tid : TableId) : (s.startProbe tid).ctHardwired = s.ctHardwired := rfl
@[simp] theorem State.startProbe_genDone (s : State) (tid : TableId) : (s.startProbe tid).genDone = s.genDone := rfl
@[simp] theorem State.startProbe_ct (s : State) (tid : TableId) : (s.startProbe tid).ct = s.ct := rfl
@[simp] theorem State.startProbe_fault (s : State) (tid : TableId) : (s.startProbe tid).fault = s.fault := rfl
@[simp] theorem State.startProbe_fcause (s : State) (tid : TableId) : (s.startProbe tid).fcause = s.fcause := rfl
@[simp] theorem State.startProbe_tables (s : State) (tid : TableId) : (s.startProbe tid).tables = s.tables := rfl
@[simp] theorem State.startProbe_gen (s : State) (tid : TableId) : (s.startProbe tid).gen = s.gen := rfl
@[simp] theorem State.startProbe_lanes (s : State) (tid : TableId) : (s.startProbe tid).lanes = s.lanes := rfl
@[simp] theorem State.startProbe_cur (s : State) (tid : TableId) : (s.startProbe tid).cur = cursorStart s.lanes.id.s1 (s.table tid).size := rfl
@[simp] theorem State.startProbe_opc (s : State) (tid : TableId) : (s.startProbe tid).opc = s.opc := rfl
@[simp] theorem State.startProbe_arg (s : State) (tid : TableId) : (s.startProbe tid).arg = s.arg := rfl
@[simp] theorem State.startProbe_phase (s : State) (tid : TableId) : (s.startProbe tid).phase = s.phase := rfl
@[simp] theorem State.startProbe_rx (s : State) (tid : TableId) : (s.startProbe tid).rx = s.rx := rfl
@[simp] theorem State.startProbe_vals (s : State) (tid : TableId) : (s.startProbe tid).vals = s.vals := rfl
@[simp] theorem State.startProbe_tx (s : State) (tid : TableId) : (s.startProbe tid).tx = s.tx := rfl
@[simp] theorem State.startProbe_cmd (s : State) (tid : TableId) : (s.startProbe tid).cmd = s.cmd := rfl
@[simp] theorem State.startProbe_rsp (s : State) (tid : TableId) : (s.startProbe tid).rsp = s.rsp := rfl
@[simp] theorem State.startProbe_choices (s : State) (tid : TableId) : (s.startProbe tid).choices = s.choices := rfl

/-! ## `State.accept` -/

@[simp] theorem State.accept_slotDepth (s : State) (rest : List Byte) : (s.accept rest).slotDepth = s.slotDepth := rfl
@[simp] theorem State.accept_ctHardwired (s : State) (rest : List Byte) : (s.accept rest).ctHardwired = s.ctHardwired := rfl
@[simp] theorem State.accept_genDone (s : State) (rest : List Byte) : (s.accept rest).genDone = s.genDone := rfl
@[simp] theorem State.accept_ct (s : State) (rest : List Byte) : (s.accept rest).ct = s.ct := rfl
@[simp] theorem State.accept_fault (s : State) (rest : List Byte) : (s.accept rest).fault = s.fault := rfl
@[simp] theorem State.accept_fcause (s : State) (rest : List Byte) : (s.accept rest).fcause = s.fcause := rfl
@[simp] theorem State.accept_tables (s : State) (rest : List Byte) : (s.accept rest).tables = s.tables := rfl
@[simp] theorem State.accept_gen (s : State) (rest : List Byte) : (s.accept rest).gen = s.gen := rfl
@[simp] theorem State.accept_lanes (s : State) (rest : List Byte) : (s.accept rest).lanes = s.lanes := rfl
@[simp] theorem State.accept_cur (s : State) (rest : List Byte) : (s.accept rest).cur = s.cur := rfl
@[simp] theorem State.accept_opc (s : State) (rest : List Byte) : (s.accept rest).opc = s.opc := rfl
@[simp] theorem State.accept_arg (s : State) (rest : List Byte) : (s.accept rest).arg = s.arg := rfl
@[simp] theorem State.accept_phase (s : State) (rest : List Byte) : (s.accept rest).phase = s.phase := rfl
@[simp] theorem State.accept_rx (s : State) (rest : List Byte) : (s.accept rest).rx = s.rx := rfl
@[simp] theorem State.accept_vals (s : State) (rest : List Byte) : (s.accept rest).vals = s.vals := rfl
@[simp] theorem State.accept_tx (s : State) (rest : List Byte) : (s.accept rest).tx = s.tx := rfl
@[simp] theorem State.accept_cmd (s : State) (rest : List Byte) : (s.accept rest).cmd = rest := rfl
@[simp] theorem State.accept_rsp (s : State) (rest : List Byte) : (s.accept rest).rsp = s.rsp := rfl
@[simp] theorem State.accept_choices (s : State) (rest : List Byte) : (s.accept rest).choices = s.choices := rfl

/-! ## `State.answer` -/

@[simp] theorem State.answer_slotDepth (s : State) (r : Response) : (s.answer r).slotDepth = s.slotDepth := rfl
@[simp] theorem State.answer_ctHardwired (s : State) (r : Response) : (s.answer r).ctHardwired = s.ctHardwired := rfl
@[simp] theorem State.answer_genDone (s : State) (r : Response) : (s.answer r).genDone = s.genDone := rfl
@[simp] theorem State.answer_ct (s : State) (r : Response) : (s.answer r).ct = s.ct := rfl
@[simp] theorem State.answer_fault (s : State) (r : Response) : (s.answer r).fault = s.fault := rfl
@[simp] theorem State.answer_fcause (s : State) (r : Response) : (s.answer r).fcause = s.fcause := rfl
@[simp] theorem State.answer_tables (s : State) (r : Response) : (s.answer r).tables = s.tables := rfl
@[simp] theorem State.answer_gen (s : State) (r : Response) : (s.answer r).gen = s.gen := rfl
@[simp] theorem State.answer_lanes (s : State) (r : Response) : (s.answer r).lanes = s.lanes := rfl
@[simp] theorem State.answer_cur (s : State) (r : Response) : (s.answer r).cur = s.cur := rfl
@[simp] theorem State.answer_opc (s : State) (r : Response) : (s.answer r).opc = s.opc := rfl
@[simp] theorem State.answer_arg (s : State) (r : Response) : (s.answer r).arg = s.arg := rfl
@[simp] theorem State.answer_phase (s : State) (r : Response) : (s.answer r).phase = .idle := rfl
@[simp] theorem State.answer_rx (s : State) (r : Response) : (s.answer r).rx = s.rx := rfl
@[simp] theorem State.answer_vals (s : State) (r : Response) : (s.answer r).vals = s.vals := rfl
@[simp] theorem State.answer_tx (s : State) (r : Response) : (s.answer r).tx = [] := rfl
@[simp] theorem State.answer_cmd (s : State) (r : Response) : (s.answer r).cmd = s.cmd := rfl
@[simp] theorem State.answer_rsp (s : State) (r : Response) : (s.answer r).rsp = s.rsp ++ r.bytes := rfl
@[simp] theorem State.answer_choices (s : State) (r : Response) : (s.answer r).choices = s.choices := rfl

/-! ## `State.probed` -/

@[simp] theorem State.probed_slotDepth (s : State) (tid : TableId) (key : Key) (d : Nat) : (s.probed tid key d).slotDepth = s.slotDepth := rfl
@[simp] theorem State.probed_ctHardwired (s : State) (tid : TableId) (key : Key) (d : Nat) : (s.probed tid key d).ctHardwired = s.ctHardwired := rfl
@[simp] theorem State.probed_genDone (s : State) (tid : TableId) (key : Key) (d : Nat) : (s.probed tid key d).genDone = s.genDone := rfl
@[simp] theorem State.probed_ct (s : State) (tid : TableId) (key : Key) (d : Nat) : (s.probed tid key d).ct = s.ct := rfl
@[simp] theorem State.probed_fault (s : State) (tid : TableId) (key : Key) (d : Nat) : (s.probed tid key d).fault = s.fault := rfl
@[simp] theorem State.probed_fcause (s : State) (tid : TableId) (key : Key) (d : Nat) : (s.probed tid key d).fcause = s.fcause := rfl
@[simp] theorem State.probed_tables (s : State) (tid : TableId) (key : Key) (d : Nat) : (s.probed tid key d).tables = s.tables := rfl
@[simp] theorem State.probed_gen (s : State) (tid : TableId) (key : Key) (d : Nat) : (s.probed tid key d).gen = s.gen := rfl
@[simp] theorem State.probed_lanes (s : State) (tid : TableId) (key : Key) (d : Nat) : (s.probed tid key d).lanes = ⟨laneRun s.ct .id key, laneRun s.ct .a key, laneRun s.ct .b key⟩ := rfl
@[simp] theorem State.probed_cur (s : State) (tid : TableId) (key : Key) (d : Nat) : (s.probed tid key d).cur = cursorAt (keyHash s.ct .id key) (s.table tid).size d := rfl
@[simp] theorem State.probed_opc (s : State) (tid : TableId) (key : Key) (d : Nat) : (s.probed tid key d).opc = s.opc := rfl
@[simp] theorem State.probed_arg (s : State) (tid : TableId) (key : Key) (d : Nat) : (s.probed tid key d).arg = s.arg := rfl
@[simp] theorem State.probed_phase (s : State) (tid : TableId) (key : Key) (d : Nat) : (s.probed tid key d).phase = s.phase := rfl
@[simp] theorem State.probed_rx (s : State) (tid : TableId) (key : Key) (d : Nat) : (s.probed tid key d).rx = s.rx := rfl
@[simp] theorem State.probed_vals (s : State) (tid : TableId) (key : Key) (d : Nat) : (s.probed tid key d).vals = s.vals := rfl
@[simp] theorem State.probed_tx (s : State) (tid : TableId) (key : Key) (d : Nat) : (s.probed tid key d).tx = s.tx := rfl
@[simp] theorem State.probed_cmd (s : State) (tid : TableId) (key : Key) (d : Nat) : (s.probed tid key d).cmd = s.cmd := rfl
@[simp] theorem State.probed_rsp (s : State) (tid : TableId) (key : Key) (d : Nat) : (s.probed tid key d).rsp = s.rsp := rfl
@[simp] theorem State.probed_choices (s : State) (tid : TableId) (key : Key) (d : Nat) : (s.probed tid key d).choices = s.choices := rfl

/-! ## `State.die` -/

@[simp] theorem State.die_slotDepth (s : State) (c : Cause) : (s.die c).slotDepth = s.slotDepth := rfl
@[simp] theorem State.die_ctHardwired (s : State) (c : Cause) : (s.die c).ctHardwired = s.ctHardwired := rfl
@[simp] theorem State.die_genDone (s : State) (c : Cause) : (s.die c).genDone = s.genDone := rfl
@[simp] theorem State.die_ct (s : State) (c : Cause) : (s.die c).ct = s.ct := rfl
@[simp] theorem State.die_fault (s : State) (c : Cause) : (s.die c).fault = true := rfl
@[simp] theorem State.die_fcause (s : State) (c : Cause) : (s.die c).fcause = causeCode c := rfl
@[simp] theorem State.die_tables (s : State) (c : Cause) : (s.die c).tables = s.tables := rfl
@[simp] theorem State.die_gen (s : State) (c : Cause) : (s.die c).gen = s.gen := rfl
@[simp] theorem State.die_lanes (s : State) (c : Cause) : (s.die c).lanes = s.lanes := rfl
@[simp] theorem State.die_cur (s : State) (c : Cause) : (s.die c).cur = s.cur := rfl
@[simp] theorem State.die_opc (s : State) (c : Cause) : (s.die c).opc = s.opc := rfl
@[simp] theorem State.die_arg (s : State) (c : Cause) : (s.die c).arg = s.arg := rfl
@[simp] theorem State.die_phase (s : State) (c : Cause) : (s.die c).phase = .dead := rfl
@[simp] theorem State.die_rx (s : State) (c : Cause) : (s.die c).rx = s.rx := rfl
@[simp] theorem State.die_vals (s : State) (c : Cause) : (s.die c).vals = s.vals := rfl
@[simp] theorem State.die_tx (s : State) (c : Cause) : (s.die c).tx = [] := rfl
@[simp] theorem State.die_cmd (s : State) (c : Cause) : (s.die c).cmd = s.cmd := rfl
@[simp] theorem State.die_rsp (s : State) (c : Cause) : (s.die c).rsp = s.rsp ++ bytesOfWord 5#32 ++ bytesOfWord ((causeCode c).setWidth 32) := rfl
@[simp] theorem State.die_choices (s : State) (c : Cause) : (s.die c).choices = s.choices := rfl

/-! ## `emit`, `offer` and `raiseFault` -/

@[simp] theorem emit_slotDepth (r : Result) : (emit r).slotDepth = r.1.slotDepth := rfl
@[simp] theorem emit_ctHardwired (r : Result) : (emit r).ctHardwired = r.1.ctHardwired := rfl
@[simp] theorem emit_genDone (r : Result) : (emit r).genDone = r.1.genDone := rfl
@[simp] theorem emit_ct (r : Result) : (emit r).ct = r.1.ct := rfl
@[simp] theorem emit_fault (r : Result) : (emit r).fault = r.1.fault := rfl
@[simp] theorem emit_fcause (r : Result) : (emit r).fcause = r.1.fcause := rfl
@[simp] theorem emit_tables (r : Result) : (emit r).tables = r.1.tables := rfl
@[simp] theorem emit_gen (r : Result) : (emit r).gen = r.1.gen := rfl
@[simp] theorem emit_lanes (r : Result) : (emit r).lanes = r.1.lanes := rfl
@[simp] theorem emit_cur (r : Result) : (emit r).cur = r.1.cur := rfl
@[simp] theorem emit_opc (r : Result) : (emit r).opc = r.1.opc := rfl
@[simp] theorem emit_arg (r : Result) : (emit r).arg = r.1.arg := rfl
@[simp] theorem emit_phase (r : Result) : (emit r).phase = if r.1.fault then .dead else .idle := rfl
@[simp] theorem emit_rx (r : Result) : (emit r).rx = r.1.rx := rfl
@[simp] theorem emit_vals (r : Result) : (emit r).vals = r.1.vals := rfl
@[simp] theorem emit_tx (r : Result) : (emit r).tx = [] := rfl
@[simp] theorem emit_cmd (r : Result) : (emit r).cmd = r.1.cmd := rfl
@[simp] theorem emit_rsp (r : Result) : (emit r).rsp = r.1.rsp ++ r.2.bytes := rfl
@[simp] theorem emit_choices (r : Result) : (emit r).choices = r.1.choices := rfl

@[simp] theorem offer_slotDepth (r : Result) : (offer r).slotDepth = r.1.slotDepth := rfl
@[simp] theorem offer_ctHardwired (r : Result) : (offer r).ctHardwired = r.1.ctHardwired := rfl
@[simp] theorem offer_genDone (r : Result) : (offer r).genDone = r.1.genDone := rfl
@[simp] theorem offer_ct (r : Result) : (offer r).ct = r.1.ct := rfl
@[simp] theorem offer_fault (r : Result) : (offer r).fault = r.1.fault := rfl
@[simp] theorem offer_fcause (r : Result) : (offer r).fcause = r.1.fcause := rfl
@[simp] theorem offer_tables (r : Result) : (offer r).tables = r.1.tables := rfl
@[simp] theorem offer_gen (r : Result) : (offer r).gen = r.1.gen := rfl
@[simp] theorem offer_lanes (r : Result) : (offer r).lanes = r.1.lanes := rfl
@[simp] theorem offer_cur (r : Result) : (offer r).cur = r.1.cur := rfl
@[simp] theorem offer_opc (r : Result) : (offer r).opc = r.1.opc := rfl
@[simp] theorem offer_arg (r : Result) : (offer r).arg = r.1.arg := rfl
@[simp] theorem offer_phase (r : Result) : (offer r).phase = .resp := rfl
@[simp] theorem offer_rx (r : Result) : (offer r).rx = r.1.rx := rfl
@[simp] theorem offer_vals (r : Result) : (offer r).vals = r.1.vals := rfl
@[simp] theorem offer_tx (r : Result) : (offer r).tx = r.2.bytes := rfl
@[simp] theorem offer_cmd (r : Result) : (offer r).cmd = r.1.cmd := rfl
@[simp] theorem offer_rsp (r : Result) : (offer r).rsp = r.1.rsp := rfl
@[simp] theorem offer_choices (r : Result) : (offer r).choices = r.1.choices := rfl

@[simp] theorem raiseFault_slotDepth (c : Cause) (s : State) : (raiseFault c s).1.slotDepth = s.slotDepth := rfl
@[simp] theorem raiseFault_ctHardwired (c : Cause) (s : State) : (raiseFault c s).1.ctHardwired = s.ctHardwired := rfl
@[simp] theorem raiseFault_genDone (c : Cause) (s : State) : (raiseFault c s).1.genDone = s.genDone := rfl
@[simp] theorem raiseFault_ct (c : Cause) (s : State) : (raiseFault c s).1.ct = s.ct := rfl
@[simp] theorem raiseFault_fault (c : Cause) (s : State) : (raiseFault c s).1.fault = true := rfl
@[simp] theorem raiseFault_fcause (c : Cause) (s : State) : (raiseFault c s).1.fcause = causeCode c := rfl
@[simp] theorem raiseFault_tables (c : Cause) (s : State) : (raiseFault c s).1.tables = s.tables := rfl
@[simp] theorem raiseFault_gen (c : Cause) (s : State) : (raiseFault c s).1.gen = s.gen := rfl
@[simp] theorem raiseFault_lanes (c : Cause) (s : State) : (raiseFault c s).1.lanes = s.lanes := rfl
@[simp] theorem raiseFault_cur (c : Cause) (s : State) : (raiseFault c s).1.cur = s.cur := rfl
@[simp] theorem raiseFault_opc (c : Cause) (s : State) : (raiseFault c s).1.opc = s.opc := rfl
@[simp] theorem raiseFault_arg (c : Cause) (s : State) : (raiseFault c s).1.arg = s.arg := rfl
@[simp] theorem raiseFault_phase (c : Cause) (s : State) : (raiseFault c s).1.phase = s.phase := rfl
@[simp] theorem raiseFault_rx (c : Cause) (s : State) : (raiseFault c s).1.rx = s.rx := rfl
@[simp] theorem raiseFault_vals (c : Cause) (s : State) : (raiseFault c s).1.vals = s.vals := rfl
@[simp] theorem raiseFault_tx (c : Cause) (s : State) : (raiseFault c s).1.tx = s.tx := rfl
@[simp] theorem raiseFault_cmd (c : Cause) (s : State) : (raiseFault c s).1.cmd = s.cmd := rfl
@[simp] theorem raiseFault_rsp (c : Cause) (s : State) : (raiseFault c s).1.rsp = s.rsp := rfl
@[simp] theorem raiseFault_choices (c : Cause) (s : State) : (raiseFault c s).1.choices = s.choices := rfl
@[simp] theorem raiseFault_response (c : Cause) (s : State) :
    (raiseFault c s).2 = ⟨.fault, (causeCode c).setWidth 32, []⟩ := rfl

/-! ## Reading a table context back -/

@[simp] theorem State.loadHeader_table (s : State) (h : Header) (k : TableId) : (s.loadHeader h).table k = s.table k := rfl
@[simp] theorem State.loadArg_table (s : State) (a : Word) (k : TableId) : (s.loadArg a).table k = s.table k := rfl
@[simp] theorem State.loadLanes_table (s : State) (l : Lanes) (k : TableId) : (s.loadLanes l).table k = s.table k := rfl
@[simp] theorem State.loadCursor_table (s : State) (c : Cursor) (k : TableId) : (s.loadCursor c).table k = s.table k := rfl
@[simp] theorem State.loadPos_table (s : State) (pos : Word) (k : TableId) : (s.loadPos pos).table k = s.table k := rfl
@[simp] theorem State.loadVals_table (s : State) (vals : List Word) (k : TableId) : (s.loadVals vals).table k = s.table k := rfl
@[simp] theorem State.loadGen_table (s : State) (x : GenRegs × Memory Word) (k : TableId) : (s.loadGen x).table k = s.table k := rfl
@[simp] theorem State.setGenerated_table (s : State) (k : TableId) : (s.setGenerated).table k = s.table k := rfl
@[simp] theorem State.nextChoice_table (s : State) (k : TableId) : (s.nextChoice).table k = s.table k := rfl
@[simp] theorem State.enter_table (s : State) (p : Phase) (k : TableId) : (s.enter p).table k = s.table k := rfl
@[simp] theorem State.hashKey_table (s : State) (key : Key) (k : TableId) : (s.hashKey key).table k = s.table k := rfl
@[simp] theorem State.startProbe_table (s : State) (tid : TableId) (k : TableId) : (s.startProbe tid).table k = s.table k := rfl
@[simp] theorem State.accept_table (s : State) (rest : List Byte) (k : TableId) : (s.accept rest).table k = s.table k := rfl
@[simp] theorem State.answer_table (s : State) (r : Response) (k : TableId) : (s.answer r).table k = s.table k := rfl
@[simp] theorem State.probed_table (s : State) (tid : TableId) (key : Key) (d : Nat) (k : TableId) : (s.probed tid key d).table k = s.table k := rfl
@[simp] theorem State.die_table (s : State) (c : Cause) (k : TableId) : (s.die c).table k = s.table k := rfl

@[simp] theorem State.loadHeader_live (s : State) (h : Header) (k : TableId) : (s.loadHeader h).live k = s.live k := rfl
@[simp] theorem State.loadArg_live (s : State) (a : Word) (k : TableId) : (s.loadArg a).live k = s.live k := rfl
@[simp] theorem State.loadLanes_live (s : State) (l : Lanes) (k : TableId) : (s.loadLanes l).live k = s.live k := rfl
@[simp] theorem State.loadCursor_live (s : State) (c : Cursor) (k : TableId) : (s.loadCursor c).live k = s.live k := rfl
@[simp] theorem State.loadPos_live (s : State) (pos : Word) (k : TableId) : (s.loadPos pos).live k = s.live k := rfl
@[simp] theorem State.loadVals_live (s : State) (vals : List Word) (k : TableId) : (s.loadVals vals).live k = s.live k := rfl
@[simp] theorem State.loadGen_live (s : State) (x : GenRegs × Memory Word) (k : TableId) : (s.loadGen x).live k = s.live k := rfl
@[simp] theorem State.setGenerated_live (s : State) (k : TableId) : (s.setGenerated).live k = s.live k := rfl
@[simp] theorem State.nextChoice_live (s : State) (k : TableId) : (s.nextChoice).live k = s.live k := rfl
@[simp] theorem State.enter_live (s : State) (p : Phase) (k : TableId) : (s.enter p).live k = s.live k := rfl
@[simp] theorem State.hashKey_live (s : State) (key : Key) (k : TableId) : (s.hashKey key).live k = s.live k := rfl
@[simp] theorem State.startProbe_live (s : State) (tid : TableId) (k : TableId) : (s.startProbe tid).live k = s.live k := rfl
@[simp] theorem State.accept_live (s : State) (rest : List Byte) (k : TableId) : (s.accept rest).live k = s.live k := rfl
@[simp] theorem State.answer_live (s : State) (r : Response) (k : TableId) : (s.answer r).live k = s.live k := rfl
@[simp] theorem State.probed_live (s : State) (tid : TableId) (key : Key) (d : Nat) (k : TableId) : (s.probed tid key d).live k = s.live k := rfl
@[simp] theorem State.die_live (s : State) (c : Cause) (k : TableId) : (s.die c).live k = s.live k := rfl

@[simp] theorem State.loadHeader_ntab (s : State) (h : Header) : (s.loadHeader h).ntab = s.ntab := rfl
@[simp] theorem State.loadArg_ntab (s : State) (a : Word) : (s.loadArg a).ntab = s.ntab := rfl
@[simp] theorem State.loadLanes_ntab (s : State) (l : Lanes) : (s.loadLanes l).ntab = s.ntab := rfl
@[simp] theorem State.loadCursor_ntab (s : State) (c : Cursor) : (s.loadCursor c).ntab = s.ntab := rfl
@[simp] theorem State.loadPos_ntab (s : State) (pos : Word) : (s.loadPos pos).ntab = s.ntab := rfl
@[simp] theorem State.loadVals_ntab (s : State) (vals : List Word) : (s.loadVals vals).ntab = s.ntab := rfl
@[simp] theorem State.loadGen_ntab (s : State) (x : GenRegs × Memory Word) : (s.loadGen x).ntab = s.ntab := rfl
@[simp] theorem State.setGenerated_ntab (s : State) : (s.setGenerated).ntab = s.ntab := rfl
@[simp] theorem State.nextChoice_ntab (s : State) : (s.nextChoice).ntab = s.ntab := rfl
@[simp] theorem State.enter_ntab (s : State) (p : Phase) : (s.enter p).ntab = s.ntab := rfl
@[simp] theorem State.hashKey_ntab (s : State) (key : Key) : (s.hashKey key).ntab = s.ntab := rfl
@[simp] theorem State.startProbe_ntab (s : State) (tid : TableId) : (s.startProbe tid).ntab = s.ntab := rfl
@[simp] theorem State.accept_ntab (s : State) (rest : List Byte) : (s.accept rest).ntab = s.ntab := rfl
@[simp] theorem State.answer_ntab (s : State) (r : Response) : (s.answer r).ntab = s.ntab := rfl
@[simp] theorem State.probed_ntab (s : State) (tid : TableId) (key : Key) (d : Nat) : (s.probed tid key d).ntab = s.ntab := rfl
@[simp] theorem State.die_ntab (s : State) (c : Cause) : (s.die c).ntab = s.ntab := rfl

@[simp] theorem State.setTable_ntab (s : State) (tid : TableId) (c : Context) : (s.setTable tid c).ntab = s.ntab := by
  simp [State.ntab]

/-- A context within NTAB reads back as written. -/
theorem State.setTable_table_same (s : State) (tid : TableId) (c : Context) (h : tid.toNat < s.ntab) :
    (s.setTable tid c).table tid = c := by
  simp only [State.table, State.setTable_tables]
  rw [List.getD_eq_getElem?_getD, List.getElem?_set_self (by simpa [State.ntab] using h)]
  rfl

/-- Every other context reads as before. -/
theorem State.setTable_table_other (s : State) (tid k : TableId) (c : Context) (h : k ≠ tid) :
    (s.setTable tid c).table k = s.table k := by
  have hn : tid.toNat ≠ k.toNat := fun e => h (BitVec.eq_of_toNat_eq e.symm)
  simp only [State.table, State.setTable_tables]
  rw [List.getD_eq_getElem?_getD, List.getD_eq_getElem?_getD, List.getElem?_set_ne hn]

/-- A live reference lies within NTAB and its context is valid (`spec/42_hashtable.md` R170). -/
theorem State.live_iff (s : State) (tid : TableId) :
    s.live tid = true ↔ tid.toNat < s.ntab ∧ (s.table tid).valid = true := by
  simp [State.live]

/-- The response packet of the fatal fault, status word and cause word. -/
theorem emit_raiseFault (c : Cause) (s : State) : emit (raiseFault c s) = s.die c := by
  simp [emit, raiseFault, State.die, Response.bytes, statusCode]

/-- A command that ends without the fault answers and is idle again. -/
theorem emit_of_no_fault (r : Result) (h : r.1.fault = false) : emit r = r.1.answer r.2 := by
  simp [emit, State.answer, h]

end Sys2Proof.Machine
end

