-- ==== Sys2Proof/Laws/Command.lean ====
section
/-! SUPPORT. Everything `runCommand` can do, and the header checks by what they read. -/

namespace Sys2Proof.Machine

/-- The header checks read GEN_DONE and the table contexts only. -/
theorem headerCheck_congr (h : Header) {s s' : State} (hg : s'.genDone = s.genDone) (ht : s'.tables = s.tables) :
    headerCheck h s' = headerCheck h s := by
  have hl : ∀ tid, s'.live tid = s.live tid := fun tid => by unfold State.live State.ntab State.table; rw [ht]
  have hn : s'.ntab = s.ntab := by simp only [State.ntab, ht]
  have ht' : ∀ tid, s'.table tid = s.table tid := fun tid => by simp only [State.table, ht]
  cases h <;> simp only [headerCheck, needGenerated, needLive, needFree, hg, hl, hn, ht']

@[simp] theorem headerCheck_loadHeader (h k : Header) (s : State) : headerCheck h (s.loadHeader k) = headerCheck h s :=
  headerCheck_congr h rfl rfl

/-- The table reference check passes exactly on a live reference (`spec/42_hashtable.md` R170). -/
theorem needLive_eq_none (tid : TableId) (s : State) : needLive tid s = none ↔ s.live tid = true := by
  unfold needLive; split <;> simp_all

theorem needGenerated_eq_none (s : State) : needGenerated s = none ↔ s.genDone = true := by
  unfold needGenerated; split <;> simp_all

/-- CREATE's table reference check passes exactly on a context within NTAB that is not live. -/
theorem needFree_eq_none (tid : TableId) (s : State) :
    needFree tid s = none ↔ tid.toNat < s.ntab ∧ (s.table tid).valid = false := by
  unfold needFree; split
  · simp; omega
  · split <;> simp_all

/-- The checks of PUT, GET and DEL pass exactly when GEN_DONE = 1 and the reference is live. -/
theorem needGenerated_or_needLive_eq_none (tid : TableId) (s : State) :
    (needGenerated s).or (needLive tid s) = none ↔ s.genDone = true ∧ s.live tid = true := by
  simp [Option.or_eq_none_iff, needLive_eq_none, needGenerated_eq_none]

/-- CREATE's operand checks pass exactly on a positive size within SLOT_DEPTH (`spec/42_hashtable.md` R171). -/
theorem sizeCheck_eq_none (depth : Nat) (a : Word) :
    sizeCheck depth a = none ↔ a ≠ 0#32 ∧ a.msb = false ∧ a.toNat ≤ depth := by
  unfold sizeCheck sizeNotPositive; split
  · next h =>
    simp only [Bool.or_eq_true, beq_iff_eq] at h
    simp only [reduceCtorEq, ne_eq, false_iff, not_and]
    rintro h0 hm
    simp_all
  · next h =>
    simp only [Bool.or_eq_true, beq_iff_eq, not_or, Bool.not_eq_true] at h
    split <;> simp_all

/-- Nothing runs while FAULT = 1 (`spec/60_exceptions.md` R251). -/
theorem runCommand_dead (h : Header) (body : State → Result) {s : State} (hf : s.fault = true) :
    runCommand h body s = .fault .dead := by
  simp [runCommand, hf]

/-- A header check that fails raises its fault (`spec/60_exceptions.md` R255). -/
theorem runCommand_check (h : Header) (body : State → Result) {s : State} (hf : s.fault = false) {c : Cause}
    (hc : headerCheck h s = some c) : runCommand h body s = .next ((s.loadHeader h).die c) := by
  simp [runCommand, hf, hc, emit_raiseFault]

/-- With the header checks passed the command's own part runs and its response ends it. -/
theorem runCommand_body (h : Header) (body : State → Result) {s : State} (hf : s.fault = false)
    (hc : headerCheck h s = none) : runCommand h body s = .next (emit (body (s.loadHeader h))) := by
  simp [runCommand, hf, hc]

/-- Everything a command can do that ends in a next state. -/
theorem runCommand_next {h : Header} {body : State → Result} {s t : State} (ht : runCommand h body s = .next t) :
    s.fault = false ∧
      ((∃ c, headerCheck h s = some c ∧ t = (s.loadHeader h).die c) ∨
        (headerCheck h s = none ∧ t = emit (body (s.loadHeader h)))) := by
  rcases Bool.eq_false_or_eq_true s.fault with hf | hf
  · simp [runCommand_dead h body hf] at ht
  · refine ⟨hf, ?_⟩
    cases hc : headerCheck h s with
    | some c => rw [runCommand_check h body hf hc] at ht; left; exact ⟨c, rfl, by injection ht with e; exact e.symm⟩
    | none => rw [runCommand_body h body hf hc] at ht; right; exact ⟨rfl, by injection ht with e; exact e.symm⟩

/-- No command answers with a refusal. -/
theorem runCommand_not_refused (h : Header) (body : State → Result) (s : State) (r : Refusal) :
    runCommand h body s ≠ .refused r := by
  unfold runCommand
  split
  · simp
  · split <;> simp

/-- Each command is `runCommand` of its header and its own part. -/
def ownPart : Instr → State → Result
  | .generate => generateBody
  | .hash ch key => hashBody ch key
  | .create tid size => createBody tid size
  | .put tid value key => putBody tid value key
  | .get tid key => getBody tid key
  | .getindex tid idx => getindexBody tid idx
  | .del tid key => delBody tid key
  | .len tid => lenBody tid
  | .release tid cb => releaseBody tid cb

theorem exec_eq_runCommand (i : Instr) (s : State) : exec i s = runCommand (headerOf i) (ownPart i) s := by
  cases i <;> rfl

end Sys2Proof.Machine
end

