-- ==== Sys2Proof/Laws/Memory.lean ====
section
/-! SUPPORT. What the memory operations do: a read after a write, and the canonical form that every one of them keeps. -/

namespace Sys2Proof.Machine

variable {α : Type}

/-! ## Reads after writes -/

theorem Memory.lookup_insert (m : Memory α) (i j : Nat) (v : α) :
    Memory.lookup (Memory.insert m i v) j = if i = j then some v else Memory.lookup m j := by
  induction m with
  | nil => simp [Memory.insert, Memory.lookup]
  | cons c m ih =>
    obtain ⟨k, x⟩ := c
    simp only [Memory.insert]
    split
    · simp [Memory.lookup]
    · split
      · subst_vars; by_cases h : k = j <;> simp [Memory.lookup, h]
      · simp only [Memory.lookup, ih]
        by_cases h1 : k = j <;> by_cases h2 : i = j <;> simp_all

theorem Memory.lookup_filter (m : Memory α) (p : Nat → Bool) (j : Nat) :
    Memory.lookup (m.filter fun c => p c.1) j = if p j then Memory.lookup m j else none := by
  induction m with
  | nil => simp [Memory.lookup]
  | cons c m ih =>
    obtain ⟨k, x⟩ := c
    by_cases hk : k = j
    · subst hk
      by_cases hp : p k = true
      · simp [hp, Memory.lookup]
      · simp only [List.filter_cons, hp, Memory.lookup] at ih ⊢; simpa [hp] using ih
    · by_cases hp : p k = true
      · simp [hp, Memory.lookup, hk, ih]
      · simp [hp, Memory.lookup, hk, ih]

theorem Memory.lookup_erase (m : Memory α) (i j : Nat) :
    Memory.lookup (Memory.erase m i) j = if i = j then none else Memory.lookup m j := by
  rw [Memory.erase, Memory.lookup_filter m (fun k => k != i)]
  by_cases h : i = j
  · simp [h]
  · simp [h, Ne.symm h]

theorem Memory.lookup_clearBelow (m : Memory α) (n j : Nat) :
    Memory.lookup (Memory.clearBelow m n) j = if j < n then none else Memory.lookup m j := by
  rw [Memory.clearBelow, Memory.lookup_filter m (fun k => decide (n ≤ k))]
  by_cases h : j < n <;> simp [h, Nat.not_le.2, Nat.not_lt.1]

/-- `MemRead(CT, j)` after `MemWrite(CT, i, v)` (`spec/00_scope.md` R10). -/
theorem ctRead_ctWrite (ct : Memory Word) (i j : Nat) (v : Word) :
    ctRead (ctWrite ct i v) j = if i = j then v else ctRead ct j := by
  unfold ctRead ctWrite
  split
  · next h => subst h; rw [Memory.lookup_erase]; split <;> rfl
  · rw [Memory.lookup_insert]; split <;> rfl

/-- `MemRead(SLOT[t], j)` after `MemWrite(SLOT[t], i, rec)` (`spec/00_scope.md` R10). -/
theorem slotRead_slotWrite (m : Memory Bucket) (i j : Nat) (r : Option Bucket) :
    slotRead (slotWrite m i r) j = if i = j then r else slotRead m j := by
  cases r with
  | none => exact Memory.lookup_erase m i j
  | some b => exact Memory.lookup_insert m i j b

theorem slotRead_clearBelow (m : Memory Bucket) (n j : Nat) :
    slotRead (Memory.clearBelow m n) j = if j < n then none else slotRead m j :=
  Memory.lookup_clearBelow m n j

/-! ## The canonical form -/

theorem Memory.mem_insert {m : Memory α} {i : Nat} {v : α} {c : Nat × α} (h : c ∈ Memory.insert m i v) :
    c = (i, v) ∨ c ∈ m := by
  induction m with
  | nil => simpa [Memory.insert] using h
  | cons d m ih =>
    obtain ⟨k, x⟩ := d
    simp only [Memory.insert] at h
    split at h
    · simpa using h
    · split at h
      · simp only [List.mem_cons] at h ⊢; tauto
      · simp only [List.mem_cons] at h ⊢
        rcases h with h | h
        · tauto
        · rcases ih h with h | h <;> tauto

theorem Memory.insert_wf {m : Memory α} (h : Memory.wf m) (i : Nat) (v : α) : Memory.wf (Memory.insert m i v) := by
  induction m with
  | nil => simp [Memory.insert, Memory.wf]
  | cons c m ih =>
    obtain ⟨k, x⟩ := c
    have hk : ∀ a ∈ m.map Prod.fst, k < a := (List.pairwise_cons.1 h).1
    have hm : Memory.wf m := (List.pairwise_cons.1 h).2
    simp only [Memory.insert]
    split
    · next hi =>
      refine List.pairwise_cons.2 ⟨fun a ha => ?_, h⟩
      rcases List.mem_cons.1 ha with rfl | ha
      · exact hi
      · exact Nat.lt_trans hi (hk a ha)
    · split
      · next hi => subst hi; exact List.pairwise_cons.2 ⟨hk, hm⟩
      · next h1 h2 =>
        refine List.pairwise_cons.2 ⟨fun a ha => ?_, ih hm⟩
        obtain ⟨c, hc, rfl⟩ := List.mem_map.1 ha
        rcases Memory.mem_insert hc with rfl | hc
        · simp only; omega
        · exact hk _ (List.mem_map_of_mem hc)

theorem Memory.filter_wf {m : Memory α} (h : Memory.wf m) (p : Nat × α → Bool) : Memory.wf (m.filter p) :=
  h.sublist (List.filter_sublist.map Prod.fst)

theorem Memory.erase_wf {m : Memory α} (h : Memory.wf m) (i : Nat) : Memory.wf (Memory.erase m i) :=
  Memory.filter_wf h _

theorem Memory.clearBelow_wf {m : Memory α} (h : Memory.wf m) (n : Nat) : Memory.wf (Memory.clearBelow m n) :=
  Memory.filter_wf h _

theorem Memory.ofList_wf (l : List (Nat × α)) : Memory.wf (Memory.ofList l) := by
  unfold Memory.ofList
  have : ∀ (l : List (Nat × α)) (m : Memory α), Memory.wf m →
      Memory.wf (l.foldl (fun m c => Memory.insert m c.1 c.2) m) := by
    intro l
    induction l with
    | nil => exact fun m h => h
    | cons c l ih => exact fun m h => ih _ (Memory.insert_wf h c.1 c.2)
  exact this l [] List.Pairwise.nil

/-- Writing SLOT[t] keeps its canonical form. -/
theorem slotWrite_wf {m : Memory Bucket} (h : Memory.wf m) (i : Nat) (r : Option Bucket) :
    Memory.wf (slotWrite m i r) := by
  cases r with
  | none => exact Memory.erase_wf h i
  | some b => exact Memory.insert_wf h i b

/-- Writing CT keeps its canonical form: writing the value an unlisted index reads as removes the entry. -/
theorem ctWrite_ctWf {m : Memory Word} (h : Memory.ctWf m) (i : Nat) (v : Word) : Memory.ctWf (ctWrite m i v) := by
  unfold ctWrite
  split
  · exact ⟨Memory.erase_wf h.1 i, fun c hc => h.2 c (List.mem_filter.1 hc).1⟩
  · next hv =>
    refine ⟨Memory.insert_wf h.1 i v, fun c hc => ?_⟩
    rcases Memory.mem_insert hc with rfl | hc
    · exact hv
    · exact h.2 c hc

/-- Writing CT within its 1280 words lists no index outside them. -/
theorem ctWrite_bound {m : Memory Word} {n : Nat} (h : ∀ c ∈ m, c.1 < n) {i : Nat} (hi : i < n) (v : Word) :
    ∀ c ∈ ctWrite m i v, c.1 < n := by
  unfold ctWrite
  intro c hc
  split at hc
  · exact h c (List.mem_filter.1 hc).1
  · rcases Memory.mem_insert hc with rfl | hc
    · exact hi
    · exact h c hc

/-- A list of words by index, the entries equal to `Config.ctUnwritten` left out, reads back as those words. -/
theorem ctRead_ofIndices (f : Nat → Word) (l : List Nat) (j : Nat) :
    ctRead ((l.map fun n => (n, f n)).filter fun c => c.2 != Config.ctUnwritten) j =
      if j ∈ l then f j else Config.ctUnwritten := by
  induction l with
  | nil => rfl
  | cons n l ih =>
    by_cases hn : n = j
    · subst hn
      by_cases hf : f n = Config.ctUnwritten
      · simp [hf, ih]
      · simp [hf, ctRead, Memory.lookup]
    · by_cases hf : f n = Config.ctUnwritten
      · simpa [hf, Ne.symm hn] using ih
      · simpa [hf, ctRead, Memory.lookup, hn, Ne.symm hn] using ih

/-- The mask ROM of `spec/40_crypttable.md` R139 reads as the constant of R134. -/
theorem ctRead_ctConstant {n : Nat} (h : n < Config.ctWords) : ctRead ctConstant n = ctConstantWord n := by
  rw [ctConstant, ctRead_ofIndices, if_pos (List.mem_range.2 h)]

/-- Right after reset every memory has its canonical form, for every value of the parameters. -/
theorem resetWith_memories_wf (p : Config.Params) :
    Memory.ctWf (State.resetWith p).ct ∧ ∀ c ∈ (State.resetWith p).tables, Memory.wf c.slots := by
  constructor
  · simp only [State.resetWith]
    split
    · refine ⟨?_, fun c hc => by simpa using (List.mem_filter.1 hc).2⟩
      refine Memory.filter_wf ?_ _
      have : ((List.range Config.ctWords).map fun n => (n, ctConstantWord n)).map Prod.fst = List.range Config.ctWords := by
        simp [List.map_map, Function.comp_def]
      unfold Memory.wf
      rw [this]
      exact List.pairwise_lt_range
    · exact ⟨List.Pairwise.nil, by simp⟩
  · intro c hc
    rw [(List.mem_replicate.1 hc).2]
    exact List.Pairwise.nil

end Sys2Proof.Machine
end

