-- ==== Sys2Proof/Laws/Words.lean ====
section
/-! SUPPORT. Words and their bytes: the four bytes of a word make the word, and a register that receives four bytes
holds their word whatever it held before (`spec/30_encoding.md` R91). -/

namespace Sys2Proof

theorem wordOfBytes_bytesOfWord (w : Word) :
    wordOfBytes (w.extractLsb' 0 8) (w.extractLsb' 8 8) (w.extractLsb' 16 8) (w.extractLsb' 24 8) = w := by
  apply BitVec.eq_of_getLsbD_eq
  intro i hi
  have : i < 32 := hi
  simp only [wordOfBytes, BitVec.getLsbD_append, BitVec.getLsbD_extractLsb']
  split
  · next h => simp [h]
  · split
    · next h1 h2 => simp [h2, show 8 + (i - 8) = i by omega]
    · split
      · next h1 h2 h3 => simp [h3, show 16 + (i - 8 - 8) = i by omega]
      · next h1 h2 h3 =>
        simp [show i - 8 - 8 - 8 < 8 by omega, show 24 + (i - 8 - 8 - 8) = i by omega]

@[simp] theorem takeWord_bytesOfWord (w : Word) (rest : List Byte) : takeWord (bytesOfWord w ++ rest) = some (w, rest) := by
  simp [bytesOfWord, takeWord, wordOfBytes_bytesOfWord]

@[simp] theorem bytesOfWord_length (w : Word) : (bytesOfWord w).length = 4 := rfl

/-- Reception of the four bytes of a word (`spec/43_controller.md` R225). -/
theorem setByte_four (w : Word) (b0 b1 b2 b3 : Byte) :
    setByte (setByte (setByte (setByte w 0#2 b0) 1#2 b1) 2#2 b2) 3#2 b3 = wordOfBytes b0 b1 b2 b3 := by
  have h1 : (1#2).toNat = 1 := rfl
  have h2 : (2#2).toNat = 2 := rfl
  have h3 : (3#2).toNat = 3 := rfl
  have h0 : (0#2).toNat = 0 := rfl
  unfold setByte wordOfBytes
  simp only [h0, h1, h2, h3]
  apply BitVec.eq_of_getLsbD_eq
  intro i hi
  simp only [BitVec.getLsbD_append, BitVec.getLsbD_extractLsb']
  grind

/-- The key's terminator ends it, and no zero byte stands before (`spec/30_encoding.md` R95). -/
theorem takeKey_encodeKey (key : Key) (h : keyWf key = true) (rest : List Byte) :
    takeKey (encodeKey key ++ rest) = some (key, rest) := by
  induction key with
  | nil => simp [encodeKey, takeKey]
  | cons b key ih =>
    simp only [keyWf, List.all_cons, Bool.and_eq_true, bne_iff_ne, ne_eq] at h
    have := ih (by simpa [keyWf] using h.2)
    simp only [encodeKey, List.append_assoc, List.cons_append, List.nil_append] at this ⊢
    simp [takeKey, h.1, this]

theorem takeKey_eq_some {bytes : List Byte} {key : Key} {rest : List Byte} (h : takeKey bytes = some (key, rest)) :
    keyWf key = true ∧ bytes = encodeKey key ++ rest := by
  induction bytes generalizing key with
  | nil => simp [takeKey] at h
  | cons b bytes ih =>
    simp only [takeKey] at h
    split at h
    · next hb => simp only [Option.some.injEq, Prod.mk.injEq] at h; obtain ⟨rfl, rfl⟩ := h; simp [keyWf, encodeKey, hb]
    · next hb =>
      simp only [Option.map_eq_some_iff, Prod.mk.injEq] at h
      obtain ⟨⟨k, r⟩, hk, rfl, rfl⟩ := h
      obtain ⟨h1, h2⟩ := ih hk
      exact ⟨by simpa [keyWf, hb] using h1, by simp [h2, encodeKey]⟩

theorem bytesOfWord_wordOfBytes (b0 b1 b2 b3 : Byte) : bytesOfWord (wordOfBytes b0 b1 b2 b3) = [b0, b1, b2, b3] := by
  unfold bytesOfWord wordOfBytes
  simp only [List.cons.injEq, and_true]
  refine ⟨?_, ?_, ?_, ?_⟩ <;>
  · apply BitVec.eq_of_getLsbD_eq
    intro i hi
    simp only [BitVec.getLsbD_append, BitVec.getLsbD_extractLsb', hi, decide_true, Bool.true_and]
    grind

theorem takeWord_eq_some {bytes : List Byte} {w : Word} {rest : List Byte} (h : takeWord bytes = some (w, rest)) :
    bytes = bytesOfWord w ++ rest := by
  match bytes, h with
  | b0 :: b1 :: b2 :: b3 :: r, h =>
    simp only [takeWord, Option.some.injEq, Prod.mk.injEq] at h
    obtain ⟨rfl, rfl⟩ := h
    simp [bytesOfWord_wordOfBytes]

end Sys2Proof
end

