-- ==== Sys2Proof/Laws/PerInstr.lean ====
section
/-! SUPPORT. Families of facts about every command as syntax, one lemma per constructor. -/

namespace Sys2Proof.Laws.PacketLength

/-- The length in bytes of a command's packet, by the table of `spec/30_encoding.md` R94: 4 header bytes, 4 argument bytes
where the command has an argument word, and `klen + 1` bytes where it has a key. -/
def Statement (i : Instr) : Prop :=
  (encode i).length =
    4 + (if (headerOf i).hasArg then 4 else 0)
      + match i with
        | .generate => 0
        | .hash _ key => key.length + 1
        | .create _ _ => 0
        | .put _ _ key => key.length + 1
        | .get _ key => key.length + 1
        | .getindex _ _ => 0
        | .del _ key => key.length + 1
        | .len _ => 0
        | .release _ _ => 0

theorem generate : Statement .generate := rfl
theorem hash (ch : Channel) (key : Key) : Statement (.hash ch key) := by
  simp [Statement, encode, encodeBody, encodeKey, headerOf, Header.hasArg]
theorem create (tid : TableId) (size : Word) : Statement (.create tid size) := rfl
theorem put (tid : TableId) (value : Word) (key : Key) : Statement (.put tid value key) := by
  simp [Statement, encode, encodeBody, encodeKey, headerOf, Header.hasArg]; omega
theorem get (tid : TableId) (key : Key) : Statement (.get tid key) := by
  simp [Statement, encode, encodeBody, encodeKey, headerOf, Header.hasArg]
theorem getindex (tid : TableId) (idx : Word) : Statement (.getindex tid idx) := rfl
theorem del (tid : TableId) (key : Key) : Statement (.del tid key) := by
  simp [Statement, encode, encodeBody, encodeKey, headerOf, Header.hasArg]
theorem len (tid : TableId) : Statement (.len tid) := rfl
theorem release (tid : TableId) (cb : Bool) : Statement (.release tid cb) := rfl

end Sys2Proof.Laws.PacketLength
end

