-- ==== Sys2Proof/Laws/Probe.lean ====
section
/-! SUPPORT. Where a probe ends (`spec/42_hashtable.md` R176): the cursor after `d` advances, the first record that stops the
probe, and a probe that wraps back to START; and the free order of RELEASE is a permutation. -/

namespace Sys2Proof.Machine

/-! ## The cursor -/

theorem cursorStart_eq (idHash size : Word) : cursorStart idHash size = cursorAt idHash size 0 := by
  have : pathPos idHash size 0 = idHash.toNat % size.toNat := by simp [pathPos]
  simp [cursorStart, cursorAt, this]

theorem pathPos_lt (idHash size : Word) (d : Nat) (h : 0 < size.toNat) : pathPos idHash size d < size.toNat :=
  Nat.mod_lt _ h

theorem cursorAt_pos (idHash size : Word) (d : Nat) (h : 0 < size.toNat) :
    (cursorAt idHash size d).pos.toNat = pathPos idHash size d := by
  have h1 := pathPos_lt idHash size d h
  have h2 := size.isLt
  simp only [cursorAt, BitVec.toNat_ofNat]
  exact Nat.mod_eq_of_lt (by omega)

theorem cursorAdvance_cursorAt (idHash size : Word) (d : Nat) (h : 0 < size.toNat) :
    cursorAdvance size (cursorAt idHash size d) = cursorAt idHash size (d + 1) := by
  have hp : (pathPos idHash size d + 1) % size.toNat = pathPos idHash size (d + 1) := by
    simp [pathPos, Nat.add_assoc]
  have h1 := cursorAt_pos idHash size d h
  simp only [cursorAdvance, h1, hp]
  simp [cursorAt, BitVec.ofNat_add]

/-- Where `n` advances from START lead. -/
theorem cursorSteps_start (idHash size : Word) (h : 0 < size.toNat) (n : Nat) :
    cursorSteps size n (cursorStart idHash size) = cursorAt idHash size n := by
  induction n with
  | zero => exact cursorStart_eq idHash size
  | succ n ih => rw [cursorSteps, ih, cursorAdvance_cursorAt idHash size n h]

/-! ## The loop -/

/-- The probe ends at the first position whose record stops it. -/
theorem probeLoop_stops (stops : Option Bucket → Bool) (slots : Memory Bucket) (idHash size : Word) (h : 0 < size.toNat) :
    ∀ (fuel d k : Nat), d < fuel →
      (∀ e < d, stops (slotRead slots (pathPos idHash size (k + e))) = false) →
      stops (slotRead slots (pathPos idHash size (k + d))) = true →
      probeLoop stops slots size fuel (cursorAt idHash size k)
        = (cursorAt idHash size (k + d), some (slotRead slots (pathPos idHash size (k + d)))) := by
  intro fuel
  induction fuel with
  | zero => intro d k hd; omega
  | succ fuel ih =>
    intro d k hd hpass hstop
    cases d with
    | zero => simp only [Nat.add_zero] at hstop; simp [probeLoop, cursorAt_pos _ _ _ h, hstop]
    | succ d =>
      have h0 := hpass 0 (by omega)
      simp only [Nat.add_zero] at h0
      have := ih d (k + 1) (by omega)
        (fun e he => by have := hpass (e + 1) (by omega); rwa [show k + (e + 1) = k + 1 + e by omega] at this)
        (by rwa [show k + (d + 1) = k + 1 + d by omega] at hstop)
      rw [show k + (d + 1) = k + 1 + d by omega]
      simp [probeLoop, cursorAt_pos _ _ _ h, h0, cursorAdvance_cursorAt _ _ _ h, this]

/-- A probe that no record stops wraps back to START. -/
theorem probeLoop_wraps (stops : Option Bucket → Bool) (slots : Memory Bucket) (idHash size : Word)
    (h : 0 < size.toNat) :
    ∀ (fuel k : Nat), (∀ e < fuel, stops (slotRead slots (pathPos idHash size (k + e))) = false) →
      probeLoop stops slots size fuel (cursorAt idHash size k) = (cursorAt idHash size (k + fuel), none) := by
  intro fuel
  induction fuel with
  | zero => intro k _; rfl
  | succ fuel ih =>
    intro k hpass
    have h0 := hpass 0 (by omega)
    simp only [Nat.add_zero] at h0
    have := ih (k + 1)
      (fun e he => by have := hpass (e + 1) (by omega); rwa [show k + (e + 1) = k + 1 + e by omega] at this)
    rw [show k + (fuel + 1) = k + 1 + fuel by omega]
    simp [probeLoop, cursorAt_pos _ _ _ h, h0, cursorAdvance_cursorAt _ _ _ h, this]

/-- Everything a probe can do: it ends at the first of the `size` positions that stops it, or wraps. -/
theorem probeLoop_cases (stops : Option Bucket → Bool) (slots : Memory Bucket) (idHash size : Word)
    (h : 0 < size.toNat) :
    (∃ d < size.toNat, (∀ e < d, stops (slotRead slots (pathPos idHash size e)) = false) ∧
        stops (slotRead slots (pathPos idHash size d)) = true ∧
        probeLoop stops slots size size.toNat (cursorStart idHash size)
          = (cursorAt idHash size d, some (slotRead slots (pathPos idHash size d)))) ∨
      ((∀ e < size.toNat, stops (slotRead slots (pathPos idHash size e)) = false) ∧
        probeLoop stops slots size size.toNat (cursorStart idHash size) = (cursorAt idHash size size.toNat, none)) := by
  rw [cursorStart_eq]
  by_cases hex : ∃ d, d < size.toNat ∧ stops (slotRead slots (pathPos idHash size d)) = true
  · left
    classical
    have hd := Nat.find_spec hex
    refine ⟨Nat.find hex, hd.1, ?_, hd.2, ?_⟩
    · intro e he
      by_contra hne
      exact Nat.find_min hex he ⟨by omega, by simpa using hne⟩
    · have := probeLoop_stops stops slots idHash size h size.toNat (Nat.find hex) 0 hd.1
        (fun e he => by
          by_contra hne
          exact Nat.find_min hex he ⟨by omega, by simpa using hne⟩) (by simpa using hd.2)
      simpa using this
  · right
    have hall : ∀ e < size.toNat, stops (slotRead slots (pathPos idHash size e)) = false := fun e he => by
      by_contra hne
      exact hex ⟨e, he, by simpa using hne⟩
    exact ⟨hall, by simpa using probeLoop_wraps stops slots idHash size h size.toNat 0 (by simpa using hall)⟩

/-- What stops PUT's probe (`spec/42_hashtable.md` R177). -/
theorem stopsPut_iff (r : Option Bucket) : stopsPut r = true ↔ r = none := by cases r <;> simp [stopsPut]

/-- What stops GET's and DEL's probe (`spec/42_hashtable.md` R185, R186). -/
theorem stopsLookup_iff (hashA hashB : Word) (r : Option Bucket) :
    stopsLookup hashA hashB r = true ↔ r = none ∨ ∃ b, r = some b ∧ b.hashA = hashA ∧ b.hashB = hashB := by
  cases r <;> simp [stopsLookup, pairMatches]

/-! ## RELEASE's order (`spec/42_hashtable.md` R201) -/

/-- Whatever the free picks are, the values go out each exactly once. -/
theorem permuteBy_perm {α : Type} (pick : Nat → Nat) (fuel k : Nat) (l : List α) :
    (permuteBy pick fuel k l).Perm l := by
  induction fuel generalizing k l with
  | zero => exact List.Perm.refl l
  | succ fuel ih =>
    match l with
    | [] => exact List.Perm.refl _
    | [x] => exact List.Perm.refl _
    | x :: y :: l' =>
      simp only [permuteBy]
      have hn : pick k % (x :: y :: l').length < (x :: y :: l').length := Nat.mod_lt _ (by simp)
      refine ((ih (k + 1) _).cons _).trans ?_
      rw [List.getD_eq_getElem _ _ hn]
      exact List.getElem_cons_eraseIdx_perm hn

end Sys2Proof.Machine
end

