-- ==== Sys2Proof/Tests/Slice0.lean ====
section
/-! SUPPORT. Our own tests: the refusals of `Instr.wf`, every command's packet written out from `spec/30_encoding.md`, small
runs of one step with results from `spec/95_test_vectors.md`, and for each obligation with hypotheses a concrete state and
operands that meet them all. -/

namespace Sys2Proof.Tests

open Sys2Proof Sys2Proof.Machine

/-! ## Well-formedness (`spec/30_encoding.md` R95) -/

theorem test_wf_refuses_zero_byte_in_hash_key : Instr.wf (.hash .id [0x61#8, 0#8]) = false := by decide
theorem test_wf_refuses_zero_byte_in_put_key : Instr.wf (.put 0 1#32 [0#8]) = false := by decide
theorem test_wf_refuses_zero_byte_in_get_key : Instr.wf (.get 0 [0#8, 0x61#8]) = false := by decide
theorem test_wf_refuses_zero_byte_in_del_key : Instr.wf (.del 0 [0xFF#8, 0#8, 0x61#8]) = false := by decide
theorem test_wf_accepts_empty_key : Instr.wf (.get 0 []) = true := by decide

/-! ## Decoding, packets of `spec/95_test_vectors.md` 2.5 and `spec/30_encoding.md` R122 -/

theorem test_decode_generate : decodePacket [0x01#8, 0#8, 0#8, 0#8] = .packet .generate [] := by decide
theorem test_decode_hash_id : decodePacket [0x02#8, 0#8, 0#8, 0#8, 0x61#8, 0#8] = .packet (.hash .id [0x61#8]) [] := by
  decide
theorem test_decode_hash_a :
    decodePacket [0x12#8, 0#8, 0#8, 0#8, 0x61#8, 0x62#8, 0#8] = .packet (.hash .a [0x61#8, 0x62#8]) [] := by decide
theorem test_decode_hash_b : decodePacket [0x22#8, 0#8, 0#8, 0#8, 0x61#8, 0#8] = .packet (.hash .b [0x61#8]) [] := by
  decide
theorem test_decode_create :
    decodePacket [0x03#8, 0xFF#8, 0#8, 0#8, 0x0B#8, 0#8, 0#8, 0x80#8] = .packet (.create 255 0x8000000B#32) [] := by decide
theorem test_decode_put :
    decodePacket [0x04#8, 0x01#8, 0#8, 0#8, 0xEF#8, 0xBE#8, 0xAD#8, 0xDE#8, 0xFF#8, 0#8, 0x77#8] =
      .packet (.put 1 0xDEADBEEF#32 [0xFF#8]) [0x77#8] := by decide
theorem test_decode_get : decodePacket [0x05#8, 0x01#8, 0#8, 0#8, 0#8] = .packet (.get 1 []) [] := by decide
theorem test_decode_getindex :
    decodePacket [0x06#8, 0#8, 0#8, 0#8, 0x0A#8, 0#8, 0#8, 0#8] = .packet (.getindex 0 10#32) [] := by decide
theorem test_decode_del : decodePacket [0x07#8, 0#8, 0#8, 0#8, 0x61#8, 0#8] = .packet (.del 0 [0x61#8]) [] := by decide
theorem test_decode_len : decodePacket [0x08#8, 0xFF#8, 0#8, 0#8] = .packet (.len 255) [] := by decide
theorem test_decode_release : decodePacket [0x09#8, 0#8, 0#8, 0#8] = .packet (.release 0 false) [] := by decide
theorem test_decode_release_cb : decodePacket [0x89#8, 0x01#8, 0#8, 0#8] = .packet (.release 1 true) [] := by decide

/-- The illegal headers of `spec/95_test_vectors.md` 2.5, each with its reason. -/
theorem test_decode_illegal_headers :
    decodeHeader 0x00000000#32 = .error .reservedOpcode ∧ decodeHeader 0x0000000A#32 = .error .reservedOpcode ∧
      decodeHeader 0x0000000F#32 = .error .reservedOpcode ∧ decodeHeader 0xFFFFFFFF#32 = .error .reservedBits ∧
      decodeHeader 0x00010008#32 = .error .reservedBits ∧ decodeHeader 0x00000011#32 = .error .strayChannel ∧
      decodeHeader 0x00000032#32 = .error .reservedChannel ∧ decodeHeader 0x00000084#32 = .error .strayCallback ∧
      decodeHeader 0x00000101#32 = .error .strayTable ∧ decodeHeader 0x00000102#32 = .error .strayTable := ⟨rfl, rfl, rfl, rfl, rfl, rfl, rfl, rfl, rfl, rfl⟩

theorem test_decode_incomplete :
    decodePacket [0x03#8, 0#8, 0#8, 0#8, 0x0B#8, 0#8, 0#8] = .incomplete ∧
      decodePacket [0x05#8, 0#8, 0#8, 0#8, 0x61#8] = .incomplete := by decide

/-- The opcode table's words, header bits only: the decoder gives the row's command. -/
theorem test_table_words :
    decodeTableWord 32 0x00000001 = some .generate ∧ decodeTableWord 32 0x00000022 = some (.hash .b []) ∧
      decodeTableWord 32 0x00000203 = some (.create 2 0#32) ∧ decodeTableWord 32 0x00000104 = some (.put 1 0#32 []) ∧
      decodeTableWord 32 0x00000105 = some (.get 1 []) ∧ decodeTableWord 32 0x00000106 = some (.getindex 1 0#32) ∧
      decodeTableWord 32 0x00000107 = some (.del 1 []) ∧ decodeTableWord 32 0x0000FF08 = some (.len 255) ∧
      decodeTableWord 32 0x00000189 = some (.release 1 true) ∧ decodeTableWord 32 0x00000032 = none := by decide

/-! ## Assembler lines (`spec/95_test_vectors.md` 2.5, `spec/30_encoding.md` R120) -/

theorem test_assemble_put : assemble "put t1, \"\\xFF\", 0xDEADBEEF ; a value".toList = some (.put 1 0xDEADBEEF#32 [0xFF#8]) := by
  decide
theorem test_assemble_negative_size : assemble "create t0, -1".toList = some (.create 0 0xFFFFFFFF#32) := by
  decide
theorem test_assemble_refuses_zero_byte : assemble "get t0, \"\\x00\"".toList = none := by decide

/-! ## Small states -/

/-- The CT words that the keys "a", "b" and "g" read (`spec/95_test_vectors.md` 2.1). -/
def ctPart : Memory Word :=
  [(97, 0x131A53B3#32), (98, 0x2ED2DC64#32), (103, 0x19A685F0#32), (353, 0xDE67982F#32), (354, 0x9CBF33CE#32),
    (359, 0xBB6329E1#32), (609, 0x4EE7DC07#32), (610, 0xF6368D9D#32), (615, 0xC81CB594#32)]

def keyA : Key := [0x61#8]
def keyB : Key := [0x62#8]
def keyG : Key := [0x67#8]

/-- Buckets of those keys, the pairs from `spec/95_test_vectors.md` 2.2. -/
def bucketA (v : Word) : Bucket := ⟨0xB0BBF6F4#32, 0x203BB2DC#32, v⟩
def bucketB (v : Word) : Bucket := ⟨0xF2635D15#32, 0x98EAE346#32, v⟩
def bucketG (v : Word) : Bucket := ⟨0xD5BF473A#32, 0xA6C0DB4F#32, v⟩

/-- A block whose table 0 is live, table 1 not; those CT words are there. -/
def withTable (size len : Word) (slots : Memory Bucket) : State :=
  { State.reset with genDone := true, ct := ctPart, tables := [⟨true, size, len, slots⟩, Context.reset] }

/-- Table 0 after `put "a", 1`, `put "g", 2` on 11 slots: both keys start at 10 (`spec/95_test_vectors.md` 2.4, P2). -/
def chain : State := withTable 11#32 2#32 [(0, bucketG 2#32), (10, bucketA 1#32)]

/-- What a command adds to the response channel; none if it gives no next state. -/
def answerOf (i : Instr) (s : State) : Option (List Byte) :=
  match exec i s with
  | .next t => some (t.rsp.drop s.rsp.length)
  | .fault _ => none
  | .refused _ => none

/-- Table 0's slots after a command. -/
def slotsAfter (i : Instr) (s : State) : Option (Memory Bucket × Word) :=
  match exec i s with
  | .next t => some ((t.table 0).slots, (t.table 0).len)
  | .fault _ => none
  | .refused _ => none

/-! ## The table and the hash -/

/-- First LCG steps (`spec/95_test_vectors.md` 2.1). -/
theorem test_lcg_first_steps :
    lcgSeq 1 = 0x2555C6#22 ∧ lcgSeq 2 = 0x1036E2#22 ∧ lcgSeq 11 = 0x0402BE#22 ∧ lcgSeq 12 = 0x200170#22 := by decide

/-- The first eleven passes of the loop (`spec/40_crypttable.md` R134, R135). -/
theorem test_generation_first_passes :
    (genLoop 11 (genRegsInit, [])).2 =
      [(0, 0x55C636E2#32), (1, 0x02BE0170#32), (2, 0x584B71D4#32), (256, 0x76F8C1B1#32), (257, 0xB39459D2#32),
        (512, 0x3DF6965D#32), (513, 0x30C1237B#32), (768, 0x15F261D3#32), (769, ctConstantWord 769),
        (1024, 0x193AA698#32), (1025, ctConstantWord 1025)] := by decide

/-- The sum of the words that `n` passes produce, and the seed after them. -/
def sumOfPasses : Nat → BitVec 22 → Word → Word × BitVec 22
  | 0, seed, acc => (acc, seed)
  | n + 1, seed, acc =>
    let first := lcgStep seed
    let second := lcgStep first
    sumOfPasses n second (acc + ctWordOfSteps first second)

/-- All 1280 words sum to 0x5EE021AE and the last seed is 0x0E286C (`spec/95_test_vectors.md` 2.1). -/
theorem test_generation_sum : sumOfPasses 1280 0x100001#22 0#32 = (0x5EE021AE#32, 0x0E286C#22) := by decide +kernel

theorem test_hash_of_a :
    keyHash ctPart .id keyA = 0x7DC63D68#32 ∧ keyHash ctPart .a keyA = 0xB0BBF6F4#32 ∧
      keyHash ctPart .b keyA = 0x203BB2DC#32 := by decide

/-- "ab": two steps, the new S1 and the old S2 (`spec/95_test_vectors.md` 2.3). -/
theorem test_hash_of_ab :
    laneRun ctPart .id (keyA ++ keyB) = ⟨0xE68B9B86#32, 0x837FF5A5#32⟩ ∧ keyHash ctPart .a (keyA ++ keyB) = 0xB2FB8934#32 ∧
      keyHash ctPart .b (keyA ++ keyB) = 0xFB72BF57#32 := by decide

/-! ## One step of each command (`spec/95_test_vectors.md` 2.6, 2.7, P1 to P3) -/

theorem test_generate_again : answerOf .generate chain = some [0#8, 0#8, 0#8, 0#8, 0#8, 0#8, 0#8, 0#8] := by decide
theorem test_hash_answers :
    answerOf (.hash .a keyA) chain = some [0#8, 0#8, 0#8, 0#8, 0xF4#8, 0xF6#8, 0xBB#8, 0xB0#8] := by decide
theorem test_hash_before_generate :
    answerOf (.hash .id keyA) State.reset = some [5#8, 0#8, 0#8, 0#8, 5#8, 0#8, 0#8, 0#8] := by decide
theorem test_create_answers :
    answerOf (.create 1 16#32) State.reset = some [0#8, 0#8, 0#8, 0#8, 1#8, 0#8, 0#8, 0#8] := by decide
theorem test_create_faults :
    answerOf (.create 1 0#32) chain = some [5#8, 0#8, 0#8, 0#8, 1#8, 0#8, 0#8, 0#8] ∧
      answerOf (.create 1 0x80000000#32) chain = some [5#8, 0#8, 0#8, 0#8, 1#8, 0#8, 0#8, 0#8] ∧
      answerOf (.create 1 17#32) chain = some [5#8, 0#8, 0#8, 0#8, 2#8, 0#8, 0#8, 0#8] ∧
      answerOf (.create 0 0#32) chain = some [5#8, 0#8, 0#8, 0#8, 4#8, 0#8, 0#8, 0#8] ∧
      answerOf (.create 2 4#32) chain = some [5#8, 0#8, 0#8, 0#8, 3#8, 0#8, 0#8, 0#8] := by decide

/-- P2 step 4: "g" starts at 10, which "a" holds, and goes to slot 0. -/
theorem test_put_wraps :
    slotsAfter (.put 0 2#32 keyG) (withTable 11#32 1#32 [(10, bucketA 1#32)]) =
      some ([(0, bucketG 2#32), (10, bucketA 1#32)], 2#32) := by decide
/-- P3 step 5: a full table. -/
theorem test_put_full :
    answerOf (.put 0 9#32 keyB) (withTable 2#32 2#32 [(0, bucketA 7#32), (1, bucketA 8#32)]) =
      some [2#8, 0#8, 0#8, 0#8, 0#8, 0#8, 0#8, 0#8] := by decide
theorem test_get_finds : answerOf (.get 0 keyG) chain = some [0#8, 0#8, 0#8, 0#8, 2#8, 0#8, 0#8, 0#8] := by decide
/-- P2 step 8: "g" is unreachable once "a" is deleted. -/
theorem test_get_broken_chain :
    answerOf (.get 0 keyG) (withTable 11#32 1#32 [(0, bucketG 2#32)]) = some [1#8, 0#8, 0#8, 0#8, 0#8, 0#8, 0#8, 0#8] := by
  decide
theorem test_getindex_bounds :
    answerOf (.getindex 0 10#32) chain = some [0#8, 0#8, 0#8, 0#8, 1#8, 0#8, 0#8, 0#8] ∧
      answerOf (.getindex 0 9#32) chain = some [1#8, 0#8, 0#8, 0#8, 0#8, 0#8, 0#8, 0#8] ∧
      answerOf (.getindex 0 11#32) chain = some [3#8, 0#8, 0#8, 0#8, 0#8, 0#8, 0#8, 0#8] ∧
      answerOf (.getindex 0 0xFFFFFFFF#32) chain = some [3#8, 0#8, 0#8, 0#8, 0#8, 0#8, 0#8, 0#8] := by decide
theorem test_del_empties :
    slotsAfter (.del 0 keyA) chain = some ([(0, bucketG 2#32)], 1#32) ∧
      answerOf (.del 0 keyA) chain = some [0#8, 0#8, 0#8, 0#8, 1#8, 0#8, 0#8, 0#8] := by decide
/-- P3 steps 8, 9: DEL removes the first duplicate; the next lies behind the emptied slot. -/
theorem test_del_hides_duplicate :
    slotsAfter (.del 0 keyA) (withTable 2#32 2#32 [(0, bucketA 7#32), (1, bucketA 8#32)]) =
        some ([(1, bucketA 8#32)], 1#32) ∧
      answerOf (.get 0 keyA) (withTable 2#32 1#32 [(1, bucketA 8#32)]) =
        some [1#8, 0#8, 0#8, 0#8, 0#8, 0#8, 0#8, 0#8] := by decide
theorem test_len :
    answerOf (.len 0) chain = some [0#8, 0#8, 0#8, 0#8, 2#8, 0#8, 0#8, 0#8] ∧
      answerOf (.len 1) chain = some [4#8, 0#8, 0#8, 0#8, 0xFF#8, 0xFF#8, 0xFF#8, 0xFF#8] ∧
      answerOf (.len 2) chain = some [4#8, 0#8, 0#8, 0#8, 0xFF#8, 0xFF#8, 0xFF#8, 0xFF#8] := by decide
/-- R200's worked example: one occupied slot, so one order. -/
theorem test_release_cb :
    answerOf (.release 0 true) (withTable 11#32 1#32 [(5, bucketB 2#32)]) =
      some [0#8, 0#8, 0#8, 0#8, 1#8, 0#8, 0#8, 0#8, 2#8, 0#8, 0#8, 0#8] := by decide
theorem test_release_without_cb :
    answerOf (.release 0 false) chain = some [0#8, 0#8, 0#8, 0#8, 0#8, 0#8, 0#8, 0#8] := by decide

/-- A packet on the command channel: `step` runs it and leaves the bytes after it. -/
theorem test_step_runs_a_packet :
    ∃ t, step (State.reset.withFetchWord 32 0x00000108) = .next t ∧
      t.rsp = [4#8, 0#8, 0#8, 0#8, 0xFF#8, 0xFF#8, 0xFF#8, 0xFF#8] ∧ t.cmd.length = 5 :=
  ⟨_, rfl, by decide⟩

/-- F14: an illegal header stops the block. -/
theorem test_step_illegal_header :
    ∃ t, step (State.reset.withFetchWord 32 0x00000000) = .next t ∧
      t.fault = true ∧ t.fcause = 6#4 ∧ t.phase = .dead ∧ step t = .fault .dead :=
  ⟨_, rfl, rfl, rfl, rfl, rfl⟩

/-! ## Witnesses: a state and operands that meet the hypotheses of each obligation -/

theorem witness_DecodeEncodeRoundTrip : Instr.wf (.put 255 0xFFFFFFFF#32 [0xFF#8, 1#8]) = true := by decide

theorem witness_DecodedPacketIsEncoding :
    decodePacket [0x04#8, 0xFF#8, 0#8, 0#8, 0#8, 0#8, 0#8, 0x80#8, 0xFF#8, 0#8, 0#8] =
      .packet (.put 255 0x80000000#32 [0xFF#8]) [0#8] := by decide

/-- Each clause at the last row and at HASH, whose `ch` stops at 2. -/
theorem witness_OpcodeRowsSelectCommands :
    decodeHeader 0x0000FF89#32 = .ok (.release 255 true) ∧ decodeHeader 0x00000022#32 = .ok (.hash .b) ∧
      (0x0000FF89#32 &&& 0xFFFF007F#32 = 9#32) ∧ (0x00000022#32 &&& 0xFFFFFF8F#32 = 2#32) ∧
      ¬ (0x00000022#32 &&& 0xFFFFFF8F#32 = 2#32 ∧ 2#3 < (0x00000022#32).extractLsb' 4 3) := by
  refine ⟨rfl, rfl, ?_, ?_, ?_⟩ <;> decide

/-- Each reason at a boundary value: op 0, op 10, reserved bit 16, `ch` 1 on GENERATE, HASH with `ch` 3, `cb` on DEL, `tid`
1 on HASH; and a block between commands with the all-zero header on its channel. -/
theorem witness_IllegalHeaderFaults :
    (0x00000000#32).extractLsb' 0 4 = 0#4 ∧ 10#4 ≤ (0x0000000A#32).extractLsb' 0 4 ∧
      (0x00010008#32).extractLsb' 16 16 ≠ 0#16 ∧ (0x00000011#32).extractLsb' 4 3 ≠ 0#3 ∧
      3#3 ≤ (0x00000032#32).extractLsb' 4 3 ∧ (0x00000087#32).extractLsb' 7 1 ≠ 0#1 ∧
      (0x00000102#32).extractLsb' 8 8 ≠ 0#8 ∧
      (State.reset.withFetchWord 32 0).phase = .idle ∧ (State.reset.withFetchWord 32 0).fault = false ∧
      (State.reset.withFetchWord 32 0).cmd = bytesOfWord 0#32 ++ List.replicate 5 0#8 := by decide

theorem witness_AssembledLineIsOneCommand :
    assemble "release t1, cb".toList = some (.release 1 true) := by decide

theorem witness_StepRunsDecodedCommand :
    ∃ s : State, s.phase = .idle ∧ s.fault = false ∧ decodePacket s.cmd = .packet (.create 1 16#32) [0x77#8] :=
  ⟨{ State.reset with cmd := encode (.create 1 16#32) ++ [0x77#8] }, by decide⟩

theorem witness_StepWaitsWithoutCommand :
    State.reset.phase = .idle ∧ State.reset.fault = false ∧ State.reset.cmd = [] := by decide

theorem witness_GeneratedTableIsTheConstant :
    ∃ (sq : Nat → Nat) (s : State), sq 0 = 0x100001 ∧ (∀ n, sq (n + 1) = (sq n * 125 + 3) % 0x2AAAAB) ∧
      s.fault = false ∧ s.genDone = false :=
  ⟨fun n => Nat.rec 0x100001 (fun _ x => (x * 125 + 3) % 0x2AAAAB) n, State.reset, rfl, fun _ => rfl, rfl, rfl⟩

theorem witness_GenerationOrder : (0 : Nat) < 1280 ∧ (1279 : Nat) < 1280 := by decide

theorem witness_SecondGenerateChangesNothing : chain.fault = false ∧ chain.genDone = true := by decide
theorem witness_EmptyKeyHashesToSeed : chain.fault = false ∧ chain.genDone = true := by decide
theorem witness_HashAnswersTheHash : chain.fault = false ∧ chain.genDone = true := by decide
theorem witness_CtIndexStaysInRange : (1#8 : Byte) ≠ 0#8 ∧ (255#8 : Byte) ≠ 0#8 := by decide

/-- Two tables that agree in bank 0 but for its word 0, and differ in it and in banks 3 and 4. -/
theorem witness_HashReadsItsBankOnly :
    keyWf keyA = true ∧
      ∀ n, (channelCode .id).toNat * 256 < n → n < (channelCode .id).toNat * 256 + 256 →
        ctRead ctPart n = ctRead ([(0, 7#32)] ++ ctPart.take 3 ++ [(800, 5#32), (1279, 6#32)]) n := by
  refine ⟨by decide, fun n h1 h2 => ?_⟩
  have h : ∀ n < 256, 0 < n →
      ctRead ctPart n = ctRead ([(0, 7#32)] ++ ctPart.take 3 ++ [(800, 5#32), (1279, 6#32)]) n := by decide +kernel
  exact h n (show n < 256 from h2) (show 0 < n from h1)

/-- A block of the variant of `spec/40_crypttable.md` R139 with some CT, contexts and phase. -/
def romWith (ct : Memory Word) (tables : List Context) (phase : Phase) : State :=
  { State.reset with
    ctHardwired := true, genDone := true, ct := ct, tables := tables, phase := phase, opc := 4#32, cur := ⟨1#32, 1#32, 0#32⟩ }

theorem ctConstant_is : CtIsConstant ctConstant := fun _ hn => ctRead_ctConstant hn

/-- Two generated machines, with and without table contexts. -/
theorem witness_HashIsPure :
    ∃ s s' : State, s.tables ≠ s'.tables ∧ s.fault = false ∧ s'.fault = false ∧ s.genDone = true ∧ s'.genDone = true ∧
      CtIsConstant s.ct ∧ CtIsConstant s'.ct := by
  have h : ∀ ct, CtIsConstant ct → ∃ s s' : State, s.tables ≠ s'.tables ∧ s.fault = false ∧ s'.fault = false ∧
      s.genDone = true ∧ s'.genDone = true ∧ CtIsConstant s.ct ∧ CtIsConstant s'.ct := fun ct hc =>
    ⟨romWith ct [] .idle, romWith ct [Context.reset] .idle, (List.cons_ne_nil _ _).symm, rfl, rfl, rfl, rfl, hc, hc⟩
  exact h ctConstant ctConstant_is

/-- Sizes 1 and SLOT_DEPTH, the largest table id. -/
theorem witness_CreateMakesEmptyTable :
    State.reset.fault = false ∧ (1#8 : TableId).toNat < State.reset.ntab ∧ (State.reset.table 1).valid = false ∧
      (1#32 ≠ 0#32 ∧ (1#32).msb = false ∧ (1#32).toNat ≤ State.reset.slotDepth) ∧
      (16#32 ≠ 0#32 ∧ (16#32).msb = false ∧ (16#32).toNat ≤ State.reset.slotDepth) := by decide

theorem witness_ProbeVisitsEverySlotOnce : 0 < (1#32 : Word).toNat ∧ 0 < (0xFFFFFFFF#32 : Word).toNat := by decide

/-- PUT of "g": at START of an empty table, and one slot further where "a" is. -/
theorem witness_PutFillsFirstEmptySlot :
    (∃ s : State, s.fault = false ∧ s.genDone = true ∧ s.live 0 = true ∧ 0 < (s.table 0).size.toNat ∧
        InsertPasses s 0 keyG 0 ∧ pathRecord s 0 keyG 0 = none) ∧
      ∃ s : State, s.fault = false ∧ s.genDone = true ∧ s.live 0 = true ∧ 1 < (s.table 0).size.toNat ∧
        InsertPasses s 0 keyG 1 ∧ pathRecord s 0 keyG 1 = none := by
  refine ⟨⟨withTable 11#32 0#32 [], ?_⟩, withTable 11#32 1#32 [(10, bucketA 1#32)], ?_⟩
  · exact ⟨rfl, rfl, by decide, by decide, fun e he => absurd he (Nat.not_lt_zero e), by decide⟩
  · refine ⟨rfl, rfl, by decide, by decide, fun e he => ⟨bucketA 1#32, ?_⟩, by decide⟩
    obtain rfl : e = 0 := by omega
    decide

/-- A table of one slot, and of two, both full. -/
def full2 : State := withTable 2#32 2#32 [(0, bucketA 7#32), (1, bucketB 8#32)]

theorem full2_passes (key : Key) (hid : keyHash full2.ct .id key = 0x777AEB2B#32) : InsertPasses full2 0 key 2 := by
  intro e he
  have : e = 0 ∨ e = 1 := by omega
  unfold pathRecord
  rw [hid]
  rcases this with rfl | rfl
  · exact ⟨bucketB 8#32, by decide⟩
  · exact ⟨bucketA 7#32, by decide⟩

theorem witness_PutFailsAfterWholeTurn :
    full2.fault = false ∧ full2.genDone = true ∧ full2.live 0 = true ∧ 0 < (full2.table 0).size.toNat ∧
      InsertPasses full2 0 keyG (full2.table 0).size.toNat :=
  ⟨rfl, rfl, by decide, by decide, full2_passes keyG (by decide)⟩

theorem witness_PutExhaustedExactlyWhenFull :
    (full2.fault = false ∧ full2.genDone = true ∧ full2.live 0 = true ∧ ContextOk full2.slotDepth (full2.table 0) ∧
        (full2.table 0).len = (full2.table 0).size) ∧
      (chain.fault = false ∧ chain.genDone = true ∧ chain.live 0 = true ∧ ContextOk chain.slotDepth (chain.table 0) ∧
        (chain.table 0).len ≠ (chain.table 0).size) := by decide

/-- "g" at distance 1 (found), "b" at distance 0 (empty), and "g" in a full table without it (a whole turn): GET and DEL. -/
theorem witness_GetFollowsProbePath :
    (chain.fault = false ∧ chain.genDone = true ∧ chain.live 0 = true) ∧
      (1 < (chain.table 0).size.toNat ∧ LookupPasses chain 0 keyG 1 ∧ pathRecord chain 0 keyG 1 = some (bucketG 2#32) ∧
        CarriesPair chain keyG (bucketG 2#32)) ∧
      (LookupPasses chain 0 keyB 0 ∧ pathRecord chain 0 keyB 0 = none) ∧
      (full2.fault = false ∧ full2.genDone = true ∧ full2.live 0 = true ∧ 0 < (full2.table 0).size.toNat ∧
        LookupPasses full2 0 keyG (full2.table 0).size.toNat) := by
  refine ⟨by decide, ⟨by decide, fun e he => ⟨bucketA 1#32, ?_, ?_⟩, by decide, by decide⟩,
    ⟨fun e he => absurd he (Nat.not_lt_zero e), by decide⟩, rfl, rfl, by decide, by decide, fun e he => ?_⟩
  · obtain rfl : e = 0 := by omega
    decide
  · decide
  · obtain ⟨b, hb⟩ := full2_passes keyG (by decide) e he
    refine ⟨b, hb, fun hc => ?_⟩
    have : e = 0 ∨ e = 1 := by change e < 2 at he; omega
    have h0 : pathRecord full2 0 keyG 0 = some (bucketB 8#32) := by decide
    have h1 : pathRecord full2 0 keyG 1 = some (bucketA 7#32) := by decide
    have hB : ¬ CarriesPair full2 keyG (bucketB 8#32) := by decide
    have hA : ¬ CarriesPair full2 keyG (bucketA 7#32) := by decide
    rcases this with rfl | rfl
    · rw [h0] at hb; cases hb; exact hB hc
    · rw [h1] at hb; cases hb; exact hA hc

theorem witness_DelFollowsProbePath :
    (chain.fault = false ∧ chain.genDone = true ∧ chain.live 0 = true) ∧
      (1 < (chain.table 0).size.toNat ∧ LookupPasses chain 0 keyG 1 ∧ pathRecord chain 0 keyG 1 = some (bucketG 2#32) ∧
        CarriesPair chain keyG (bucketG 2#32)) ∧
      (LookupPasses chain 0 keyB 0 ∧ pathRecord chain 0 keyB 0 = none) ∧
      (full2.fault = false ∧ full2.genDone = true ∧ full2.live 0 = true ∧ 0 < (full2.table 0).size.toNat ∧
        LookupPasses full2 0 keyG (full2.table 0).size.toNat) := witness_GetFollowsProbePath

/-- PUT of "g" past "a", and PUT of a second "a" past the first. -/
theorem witness_GetAfterPut :
    (∃ s t : State, s.fault = false ∧ s.genDone = true ∧ s.live 0 = true ∧ exec (.put 0 2#32 keyG) s = .next t ∧
        statusBetween s t = some 0#32 ∧ LookupPasses s 0 keyG 1) ∧
      ∃ s t : State, s.fault = false ∧ s.genDone = true ∧ s.live 0 = true ∧ exec (.put 0 2#32 keyA) s = .next t ∧
        statusBetween s t = some 0#32 ∧ LookupPasses s 0 keyA 0 ∧ pathRecord s 0 keyA 0 = some (bucketA 1#32) ∧
        CarriesPair s keyA (bucketA 1#32) := by
  refine ⟨⟨withTable 11#32 1#32 [(10, bucketA 1#32)], _, rfl, rfl, by decide, rfl, by decide, fun e he => ?_⟩,
    withTable 11#32 1#32 [(10, bucketA 1#32)], _, rfl, rfl, by decide, rfl, by decide,
    fun e he => absurd he (Nat.not_lt_zero e), by decide, by decide⟩
  obtain rfl : e = 0 := by omega
  exact ⟨bucketA 1#32, by decide, by decide⟩

/-- A DEL that finds its key, and one that does not. -/
theorem witness_GetAfterDelIsNotFound :
    (∃ t, chain.fault = false ∧ chain.genDone = true ∧ chain.live 0 = true ∧ exec (.del 0 keyA) chain = .next t ∧
        statusBetween chain t = some 0#32) ∧
      ∃ t, exec (.del 0 keyB) chain = .next t ∧ statusBetween chain t = some 1#32 :=
  ⟨⟨_, rfl, rfl, by decide, rfl, by decide⟩, _, rfl, by decide⟩

/-- "g" lies one slot from START; DEL of "a" empties START. -/
theorem witness_DeletionBreaksProbeChains :
    ∃ t, chain.fault = false ∧ chain.genDone = true ∧ chain.live 0 = true ∧ 1 < (chain.table 0).size.toNat ∧
      LookupPasses chain 0 keyG 1 ∧ pathRecord chain 0 keyG 1 = some (bucketG 2#32) ∧
      CarriesPair chain keyG (bucketG 2#32) ∧ 0 < 1 ∧ exec (.del 0 keyA) chain = .next t ∧
      statusBetween chain t = some 0#32 ∧ pathRecord t 0 keyG 0 = none := by
  have h := witness_GetFollowsProbePath
  exact ⟨_, rfl, rfl, by decide, h.2.1.1, h.2.1.2.1, h.2.1.2.2.1, h.2.1.2.2.2, by decide, rfl, by decide,
    by decide⟩

/-- Two keys with the same three hashes, in a CT of zeros: the last byte does not reach S1. -/
theorem witness_EqualHashesAreOneKey :
    keyA ≠ keyB ∧ { chain with ct := [] }.fault = false ∧
      ∀ c, keyHash { chain with ct := [] }.ct c keyA = keyHash { chain with ct := [] }.ct c keyB := by
  refine ⟨by decide, rfl, fun c => ?_⟩
  cases c <;> decide

/-- The last legal index, occupied; an empty slot; the first index that is not legal. -/
theorem witness_GetindexReadsOneSlot :
    chain.fault = false ∧ chain.live 0 = true ∧ slotRead (chain.table 0).slots 10 = some (bucketA 1#32) ∧
      slotRead (chain.table 0).slots 9 = none ∧ (chain.table 0).size.toNat ≤ (11#32 : Word).toNat := by decide

/-- Live, not live, and beyond NTAB. -/
theorem witness_LenAnswersCountOrBadTable :
    chain.fault = false ∧ (0 < chain.ntab ∧ (chain.table 0).valid = true) ∧ (chain.table 1).valid = false ∧
      ¬ (2#8 : TableId).toNat < chain.ntab := by decide

theorem witness_ReleaseHandsBackValues : chain.fault = false ∧ chain.live 0 = true := by decide
theorem witness_ReleaseCountIsLen :
    chain.fault = false ∧ chain.live 0 = true ∧ ContextOk chain.slotDepth (chain.table 0) := by decide
theorem witness_EveryReleaseOrderIsAllowed : [1#32, 2#32, 3#32].Perm [3#32, 1#32, 2#32] := by decide

theorem witness_ReleasedTableIsNoReference :
    (∃ t, chain.fault = false ∧ chain.live 0 = true ∧ exec (.release 0 true) chain = .next t) ∧
      (chain.genDone = true ∨ (headerOf (.put 0 1#32 keyA)).hasKey = false) ∧
      (16#32 ≠ 0#32 ∧ (16#32).msb = false ∧ (16#32).toNat ≤ chain.slotDepth) :=
  ⟨⟨_, rfl, by decide, rfl⟩, by decide, by decide⟩

/-- Each cause at a boundary: before GENERATE; table ids 1 and 2 of a block with NTAB = 2; a live table; sizes 0,
0x80000000 and 17; and commands that no check stops. -/
theorem witness_FaultCauseByPriority :
    State.reset.genDone = false ∧ State.reset.ntab ≤ (2#8 : TableId).toNat ∧ (State.reset.table 1).valid = false ∧
      (chain.table 0).valid = true ∧ (1#8 : TableId).toNat < chain.ntab ∧ (chain.table 1).valid = false ∧
      (0x80000000#32 : Word).msb = true ∧ ¬ ((17#32 : Word) = 0#32 ∨ (17#32 : Word).msb = true) ∧
      chain.slotDepth < (17#32 : Word).toNat ∧ chain.fault = false ∧ State.reset.fault = false ∧
      ¬ chain.slotDepth < (16#32 : Word).toNat := by decide

theorem witness_FaultsArePrecise :
    ∃ t, chain.fault = false ∧ exec (.create 1 17#32) chain = .next t ∧ t.fault = true :=
  ⟨_, rfl, rfl, by decide⟩

/-- A block stopped by FC_ILLEGAL. -/
def dead : State := { State.reset with fault := true, fcause := 6#4, phase := .dead }

theorem witness_DeadBlockTakesNoStep :
    dead.fault = true ∧ dead.phase = .dead ∧ (⟨false, true, 1#8, true⟩ : Pins).rst = false := by decide

/-- A dead block, and one that is still sending its FAULT response. -/
theorem witness_FaultIsClearedOnlyByReset :
    (Inv dead ∧ dead.fault = true) ∧
      Inv { dead with phase := .resp, tx := [0#8] } ∧ { dead with phase := .resp, tx := [0#8] }.fault = true := by
  refine ⟨⟨⟨by decide, ?_⟩, rfl⟩, ⟨by decide, ?_⟩, rfl⟩
  · change dead.fault = true ∧ QuietRegs dead
    decide
  · change dead.rx = 0#2 ∧ dead.vals = [] ∧ [0#8] ≠ []
    decide

/-- OK, a result status, and the fault. -/
theorem witness_CommandsEndInThreeWays :
    chain.fault = false ∧ (∃ t, exec (.get 0 keyG) chain = .next t ∧ statusBetween chain t = some 0#32) ∧
      (∃ t, exec (.get 0 keyB) chain = .next t ∧ statusBetween chain t = some 1#32) ∧
      ∃ t, exec (.get 1 keyB) chain = .next t ∧ statusBetween chain t = some 5#32 :=
  ⟨rfl, ⟨_, rfl, by decide⟩, ⟨_, rfl, by decide⟩, _, rfl, by decide⟩

/-- A RELEASE with values, one without, and a status other than OK. -/
theorem witness_EveryCommandSendsOneResponse :
    (∃ t, exec (.release 0 true) (withTable 11#32 1#32 [(5, bucketB 2#32)]) = .next t ∧ t.rsp.length = 12) ∧
      (∃ t, exec (.release 0 false) chain = .next t ∧ t.rsp.length = 8) ∧
      ∃ t, exec (.get 0 keyB) chain = .next t ∧ statusBetween chain t = some 1#32 :=
  ⟨⟨_, rfl, by decide⟩, ⟨_, rfl, by decide⟩, _, rfl, by decide⟩

/-- A slot that was there before (slot 10), and the one PUT fills (slot 5). -/
theorem witness_OccupiedSlotsComeFromPut :
    ∃ t, exec (.put 0 3#32 keyB) chain = .next t ∧ t.live 0 = true ∧ 10 < (t.table 0).size.toNat ∧
      slotRead (t.table 0).slots 10 = some (bucketA 1#32) ∧ slotRead (t.table 0).slots 5 = some (bucketB 3#32) :=
  ⟨_, rfl, by decide⟩

theorem romWith_archInv (ct : Memory Word) (tables : List Context) (phase : Phase) (h1 : Memory.ctWf ct)
    (h2 : ∀ c ∈ ct, c.1 < Config.ctWords) (h3 : CtIsConstant ct) (h4 : 1 ≤ tables.length ∧ tables.length ≤ 256)
    (h5 : ∀ c ∈ tables, ContextOk 16 c) : ArchInv (romWith ct tables phase) :=
  ⟨⟨h4.1, h4.2, (by decide : 1 ≤ 16), (by decide : 16 < 2 ^ 31)⟩, h1, h2, fun _ => h3, fun _ => rfl, h5,
    (by decide : (0#4).toNat ≤ 6), (by decide : (0#4 = 0#4 ↔ false = false))⟩

theorem ctConstant_wf : Memory.ctWf ctConstant := by
  have h := (resetWith_memories_wf ⟨2, 16, true⟩).1
  simpa [State.resetWith] using h

theorem ctConstant_bound : ∀ c ∈ ctConstant, c.1 < Config.ctWords := by
  intro c hc
  obtain ⟨n, hn, rfl⟩ := List.mem_map.1 (List.mem_filter.1 hc).1
  exact List.mem_range.1 hn

/-- CREATE of one slot and a PUT that fills it; the empty key. -/
theorem witness_LenCountsPutsMinusDels :
    ∃ (s t : State) (is : List Instr), ArchInv s ∧ SafeRun (.create 0 1#32 :: is) s t ∧ (∀ n, Instr.create 0 n ∉ is) ∧
      (∀ cb, Instr.release 0 cb ∉ is) ∧ is.length = 1 := by
  have h : ∀ ct, ∃ t, SafeRun [.create 0 1#32, .put 0 1#32 []] (romWith ct [Context.reset] .idle) t :=
    fun _ => ⟨_, rfl, rfl⟩
  obtain ⟨t, ht⟩ := h ctConstant
  exact ⟨_, t, _, romWith_archInv _ _ _ ctConstant_wf ctConstant_bound ctConstant_is (by decide) (by decide), ht,
    fun n => by simp, fun cb => by simp, rfl⟩

/-- A command on table 1 seen from table 0, and a command that names no table. -/
theorem witness_OtherTablesUntouched :
    (∃ t, exec (.create 1 16#32) chain = .next t) ∧ (∀ tid, (Instr.create 1 16#32).table? = some tid → tid.toNat ≠ 0) ∧
      (∃ t, exec (.hash .b keyA) chain = .next t) ∧
      ∀ tid, (Instr.hash .b keyA).table? = some tid → tid.toNat ≠ 0 := by
  refine ⟨⟨_, rfl⟩, fun tid h => ?_, ⟨_, rfl⟩, fun tid h => ?_⟩
  · simp only [Instr.table?, Option.some.injEq] at h
    subst h
    decide
  · simp [Instr.table?] at h

theorem witness_CtWrittenOnlyByFirstGenerate :
    (∃ t, exec (.put 0 3#32 keyB) chain = .next t) ∧ (Instr.put 0 3#32 keyB ≠ .generate) ∧
      (∃ t, exec .generate chain = .next t) ∧ chain.genDone = true :=
  ⟨⟨_, rfl⟩, by decide, ⟨_, rfl⟩, rfl⟩

theorem witness_ParametersNeverChange : ∃ t, step (State.reset.withFetchWord 32 0x00000108) = .next t := ⟨_, rfl⟩
theorem witness_ResetAbandonsEverything : (⟨true, false, 0#8, false⟩ : Pins).rst = true := rfl

/-- The ends of the ranges of `spec/00_scope.md` R7. -/
theorem witness_InvHoldsAtReset :
    (⟨1, 1, false⟩ : Config.Params).legal ∧ (⟨256, 2 ^ 31 - 1, true⟩ : Config.Params).legal := by decide

/-- Between commands with a packet waiting; and inside GENERATE, before its first pass. -/
theorem witness_EveryStepKeepsInv :
    (∃ s t : State, Inv s ∧ s.phase = .idle ∧ step s = .next t ∧ t.phase = .idle) ∧
      ∃ s t : State, Inv s ∧ s.phase = .gen ∧ step s = .next t := by
  refine ⟨⟨{ State.reset with cmd := encode (.create 1 16#32) }, _, ⟨by decide, ?_⟩, rfl, rfl, rfl⟩,
    { State.reset with phase := .gen, opc := 1#32, gen := genRegsInit }, _, ⟨by decide, ?_⟩, rfl, rfl⟩
  · change State.reset.fault = false ∧ QuietRegs State.reset
    decide
  · exact ⟨rfl, ⟨rfl, rfl, rfl⟩, rfl, rfl, 0, by decide, rfl, fun j hj => absurd hj (Nat.not_lt_zero j)⟩

/-- Inside CREATE's clearing scan; and inside PUT's probe. -/
theorem witness_EveryTickKeepsInv :
    (∃ s : State, Inv s ∧ s.phase = .clear) ∧ ∃ s : State, Inv s ∧ s.phase = .probe := by
  refine ⟨⟨{ State.reset with
      phase := .clear
      opc := 3#32
      arg := 16#32
      tables := [⟨false, 16#32, 0#32, []⟩, Context.reset] }, ⟨by decide, ?_⟩, rfl⟩, ?_⟩
  · exact ⟨rfl, ⟨rfl, rfl, rfl⟩, 0, rfl, rfl, rfl, rfl, rfl, by decide, fun i hi => absurd hi (Nat.not_lt_zero i)⟩
  · have h : ∀ ct, PhaseInv (romWith ct [⟨true, 2#32, 1#32, [(1, ⟨0#32, 0#32, 5#32⟩)]⟩] .probe) := fun ct =>
      ⟨rfl, ⟨rfl, rfl, rfl⟩, .put 0, 0, (rfl : decodeHeader 4#32 = .ok (.put 0)), .inl rfl, rfl,
        (by decide : (1#32).toNat < (2#32).toNat), (by decide : (0#32).toNat < (2#32).toNat)⟩
    exact ⟨_, ⟨romWith_archInv _ _ _ ctConstant_wf ctConstant_bound ctConstant_is (by decide) (by decide), h _⟩,
      rfl⟩

/-- Table 0 has room, table 1 is full, table 2 is free. -/
def threeTables : List Context :=
  [⟨true, 2#32, 1#32, [(1, ⟨0#32, 0#32, 5#32⟩)]⟩, ⟨true, 1#32, 1#32, [(0, ⟨0#32, 0#32, 5#32⟩)]⟩, Context.reset]

/-- Every row of the table but the third, whose run is `witness_LenCountsPutsMinusDels`'s. -/
theorem witness_TestableProperties :
    ∃ s : State, ArchInv s ∧ s.fault = false ∧ s.genDone = true ∧
      (s.live 0 = true ∧ (s.table 0).len ≠ (s.table 0).size) ∧ (s.live 1 = true ∧ (s.table 1).len = (s.table 1).size) ∧
      (2#8 : TableId).toNat < s.ntab ∧ (s.table 2).valid = false := by
  have h : ∀ ct, (romWith ct threeTables .idle).tables = threeTables := fun _ => rfl
  refine ⟨romWith ctConstant threeTables .idle, romWith_archInv _ _ _ ctConstant_wf ctConstant_bound ctConstant_is
    (by decide) (by decide), rfl, rfl, ?_⟩
  simp only [State.live, State.table, State.ntab, h]
  decide

theorem witness_ControllerRunsCommand :
    ∃ s : State, Instr.wf (.put 0 3#32 keyB) = true ∧ Ready s ∧ s.cmd = encode (.put 0 3#32 keyB) ++ [1#8] :=
  ⟨{ chain with cmd := encode (.put 0 3#32 keyB) ++ [1#8] }, rfl, ⟨rfl, rfl, rfl, rfl, rfl⟩, rfl⟩

theorem witness_ControllerRejectsIllegalHeader :
    ∃ s : State, Ready s ∧ s.cmd = bytesOfWord 0x32#32 ++ keyA ∧ decodeHeader 0x32#32 = .error .reservedChannel :=
  ⟨{ State.reset with cmd := bytesOfWord 0x32#32 ++ keyA }, ⟨rfl, rfl, rfl, rfl, rfl⟩, rfl, rfl⟩

theorem witness_HandshakeWaits :
    cmdReady State.reset = true ∧ rspValid { State.reset with phase := .resp, tx := [0#8] } = true ∧
      (⟨false, false, 1#8, false⟩ : Pins).rst = false := by decide

end Sys2Proof.Tests
end

-- ==== The CT index of a key byte (`spec/20_memory.md` R61) ====
section
namespace Sys2Proof.Machine

/-- R97: the three channels are numbered 0 to 2. -/
theorem channelCode_le_two (c : Channel) : (channelCode c).toNat ≤ 2 := by
  cases c <;> decide

/-- R61's two spellings of the index agree because a key byte is below 256. -/
theorem ctIndex_eq_mul_add (c : Channel) (ch : Byte) :
    ctIndex c ch = (channelCode c).toNat * 256 + ch.toNat := by
  have hch : ch.toNat < 2 ^ 8 := ch.isLt
  calc ctIndex c ch = (channelCode c).toNat <<< 8 ||| ch.toNat := rfl
    _ = (channelCode c).toNat <<< 8 + ch.toNat := (Nat.shiftLeft_add_eq_or_of_lt hch _).symm
    _ = (channelCode c).toNat * 256 + ch.toNat := by rw [Nat.shiftLeft_eq]

/-- Every index a lane forms lies in banks 0 to 2. -/
theorem ctIndex_le (c : Channel) (ch : Byte) : ctIndex c ch ≤ 767 := by
  have hc := channelCode_le_two c
  have hch := ch.isLt
  rw [ctIndex_eq_mul_add]
  omega

/-- A key byte is not 0, so no lane reads word 0 of CT. -/
theorem one_le_ctIndex {ch : Byte} (c : Channel) (hne : ch ≠ 0#8) : 1 ≤ ctIndex c ch := by
  have hpos : 0 < ch.toNat := Nat.pos_of_ne_zero fun h => hne (BitVec.eq_of_toNat_eq h)
  rw [ctIndex_eq_mul_add]
  omega

/-- R152: S1 takes the word read at the lane's index, xored with S1 + S2. -/
theorem laneStep_s1 (ct : Memory Word) (c : Channel) (l : Lane) (ch : Byte) :
    (laneStep ct c l ch).s1 = ctRead ct (ctIndex c ch) ^^^ (l.s1 + l.s2) := rfl

/-- The word a lane reads shows in its S1: xor with S1 + S2 a second time gives it back. -/
theorem laneStep_s1_xor (ct : Memory Word) (c : Channel) (l : Lane) (ch : Byte) :
    (laneStep ct c l ch).s1 ^^^ (l.s1 + l.s2) = ctRead ct (ctIndex c ch) := by
  rw [laneStep_s1, BitVec.xor_assoc, BitVec.xor_self, BitVec.xor_zero]

/-- Settles O18: the word read is taken from S1, the index from its arithmetic form. -/
theorem ctIndexStaysInRange : Obligations.CtIndexStaysInRange := fun ct l c ch =>
  ⟨laneStep_s1_xor ct c l ch, rfl, ctIndex_eq_mul_add c ch,
    fun hne => ⟨one_le_ctIndex c hne, ctIndex_le c ch⟩⟩

end Sys2Proof.Machine
end

-- ==== The header word and the opcode map (`spec/30_encoding.md` R93, R96, R101) ====
section
namespace Sys2Proof

/-! ## The fields of a header word (`spec/30_encoding.md` R93) -/

@[simp] theorem fieldOp_headerOfFields (op : BitVec 4) (ch : BitVec 3) (cb : BitVec 1) (tid : TableId) :
    fieldOp (headerOfFields op ch cb tid) = op :=
  BitVec.extractLsb'_append_eq_right

@[simp] theorem fieldCh_headerOfFields (op : BitVec 4) (ch : BitVec 3) (cb : BitVec 1) (tid : TableId) :
    fieldCh (headerOfFields op ch cb tid) = ch :=
  calc BitVec.extractLsb' 4 3 (0#16 ++ tid ++ cb ++ ch ++ op)
    _ = BitVec.extractLsb' 0 3 (0#16 ++ tid ++ cb ++ ch) := BitVec.extractLsb'_append_eq_of_le (by decide)
    _ = ch := BitVec.extractLsb'_append_eq_right

@[simp] theorem fieldCb_headerOfFields (op : BitVec 4) (ch : BitVec 3) (cb : BitVec 1) (tid : TableId) :
    fieldCb (headerOfFields op ch cb tid) = cb :=
  calc BitVec.extractLsb' 7 1 (0#16 ++ tid ++ cb ++ ch ++ op)
    _ = BitVec.extractLsb' 3 1 (0#16 ++ tid ++ cb ++ ch) := BitVec.extractLsb'_append_eq_of_le (by decide)
    _ = BitVec.extractLsb' 0 1 (0#16 ++ tid ++ cb) := BitVec.extractLsb'_append_eq_of_le (by decide)
    _ = cb := BitVec.extractLsb'_append_eq_right

@[simp] theorem fieldTid_headerOfFields (op : BitVec 4) (ch : BitVec 3) (cb : BitVec 1) (tid : TableId) :
    fieldTid (headerOfFields op ch cb tid) = tid :=
  calc BitVec.extractLsb' 8 8 (0#16 ++ tid ++ cb ++ ch ++ op)
    _ = BitVec.extractLsb' 4 8 (0#16 ++ tid ++ cb ++ ch) := BitVec.extractLsb'_append_eq_of_le (by decide)
    _ = BitVec.extractLsb' 1 8 (0#16 ++ tid ++ cb) := BitVec.extractLsb'_append_eq_of_le (by decide)
    _ = BitVec.extractLsb' 0 8 (0#16 ++ tid) := BitVec.extractLsb'_append_eq_of_le (by decide)
    _ = tid := BitVec.extractLsb'_append_eq_right

@[simp] theorem fieldReserved_headerOfFields (op : BitVec 4) (ch : BitVec 3) (cb : BitVec 1) (tid : TableId) :
    fieldReserved (headerOfFields op ch cb tid) = 0#16 :=
  calc BitVec.extractLsb' 16 16 (0#16 ++ tid ++ cb ++ ch ++ op)
    _ = BitVec.extractLsb' 12 16 (0#16 ++ tid ++ cb ++ ch) := BitVec.extractLsb'_append_eq_of_le (by decide)
    _ = BitVec.extractLsb' 9 16 (0#16 ++ tid ++ cb) := BitVec.extractLsb'_append_eq_of_le (by decide)
    _ = BitVec.extractLsb' 8 16 (0#16 ++ tid) := BitVec.extractLsb'_append_eq_of_le (by decide)
    _ = 0#16 := BitVec.extractLsb'_append_eq_left

/-- The five fields make up the whole word. -/
theorem append_fields (w : Word) : fieldReserved w ++ fieldTid w ++ fieldCb w ++ fieldCh w ++ fieldOp w = w :=
  calc fieldReserved w ++ fieldTid w ++ fieldCb w ++ fieldCh w ++ fieldOp w
    _ = w.extractLsb' 8 24 ++ fieldCb w ++ fieldCh w ++ fieldOp w := by
      rw [show fieldReserved w ++ fieldTid w = w.extractLsb' 8 24 from
        BitVec.extractLsb'_append_extractLsb'_eq_extractLsb' rfl]
    _ = w.extractLsb' 7 25 ++ fieldCh w ++ fieldOp w := by
      rw [show w.extractLsb' 8 24 ++ fieldCb w = w.extractLsb' 7 25 from
        BitVec.extractLsb'_append_extractLsb'_eq_extractLsb' rfl]
    _ = w.extractLsb' 4 28 ++ fieldOp w := by
      rw [show w.extractLsb' 7 25 ++ fieldCh w = w.extractLsb' 4 28 from
        BitVec.extractLsb'_append_extractLsb'_eq_extractLsb' rfl]
    _ = w := (BitVec.extractLsb'_append_extractLsb'_eq_extractLsb' rfl).trans BitVec.extractLsb'_eq_self

theorem word_eq_iff_fields (v w : Word) :
    v = w ↔ fieldReserved v = fieldReserved w ∧ fieldOp v = fieldOp w ∧ fieldCh v = fieldCh w ∧
      fieldCb v = fieldCb w ∧ fieldTid v = fieldTid w := by
  refine ⟨by rintro rfl; simp, ?_⟩
  rintro ⟨hres, hop, hch, hcb, htid⟩
  rw [← append_fields v, ← append_fields w, hres, hop, hch, hcb, htid]

@[simp] theorem fieldOp_and (v w : Word) : fieldOp (v &&& w) = fieldOp v &&& fieldOp w :=
  BitVec.extractLsb'_and

@[simp] theorem fieldCh_and (v w : Word) : fieldCh (v &&& w) = fieldCh v &&& fieldCh w :=
  BitVec.extractLsb'_and

@[simp] theorem fieldCb_and (v w : Word) : fieldCb (v &&& w) = fieldCb v &&& fieldCb w :=
  BitVec.extractLsb'_and

@[simp] theorem fieldTid_and (v w : Word) : fieldTid (v &&& w) = fieldTid v &&& fieldTid w :=
  BitVec.extractLsb'_and

@[simp] theorem fieldReserved_and (v w : Word) : fieldReserved (v &&& w) = fieldReserved v &&& fieldReserved w :=
  BitVec.extractLsb'_and

/-- R97: the codes of the three channels read back. -/
@[simp] theorem channelOfCode_channelCode (c : Channel) : channelOfCode (channelCode c) = some c := by
  cases c <;> rfl

theorem channelOfCode_eq_none_iff (c : BitVec 3) : channelOfCode c = none ↔ 3#3 ≤ c := by
  revert c; decide

/-- R93: a field that the command does not use must be zero. -/
theorem checkUnused_error_iff (h : Word) (usesCh usesCb usesTid : Bool) (r : Header) :
    (∃ why, checkUnused h usesCh usesCb usesTid r = .error why) ↔
      (usesCh = false ∧ fieldCh h ≠ 0) ∨ (usesCb = false ∧ fieldCb h ≠ 0) ∨ (usesTid = false ∧ fieldTid h ≠ 0) := by
  unfold checkUnused
  split
  · simp_all
  · split
    · simp_all
    · split <;> simp_all

/-! ## The opcode map (`spec/30_encoding.md` R96, R101) -/

/-- R101: the header words that the block rejects, by their fields. -/
def IllegalFields (w : Word) : Prop :=
  fieldOp w = 0#4 ∨ 10#4 ≤ fieldOp w ∨ fieldReserved w ≠ 0#16 ∨ (fieldCh w ≠ 0#3 ∧ fieldOp w ≠ 2#4) ∨
    (fieldOp w = 2#4 ∧ 3#3 ≤ fieldCh w) ∨ (fieldCb w ≠ 0#1 ∧ fieldOp w ≠ 9#4) ∨
      (fieldTid w ≠ 0#8 ∧ (fieldOp w = 1#4 ∨ fieldOp w = 2#4))

/-- R96: an opcode is reserved, or it is the opcode of one of the nine commands. -/
theorem opcode_cases (op : BitVec 4) :
    (op = 0#4 ∨ 10#4 ≤ op) ∨ op = 1#4 ∨ op = 2#4 ∨ op = 3#4 ∨ op = 4#4 ∨ op = 5#4 ∨ op = 6#4 ∨ op = 7#4 ∨ op = 8#4 ∨
      op = 9#4 := by
  revert op; decide

theorem decodeHeader_of_reserved_bits {w : Word} (hres : fieldReserved w ≠ 0#16) :
    decodeHeader w = .error .reservedBits := by
  simp [decodeHeader, hres]

theorem decodeHeader_of_reserved_opcode {w : Word} (hres : fieldReserved w = 0#16)
    (hop : fieldOp w = 0#4 ∨ 10#4 ≤ fieldOp w) : decodeHeader w = .error .reservedOpcode := by
  unfold decodeHeader
  split
  · simp_all
  · split <;> simp_all [BitVec.le_def]

/-- HASH is the one command whose channel can be a reserved one. -/
theorem decodeHeader_hash_error_iff {w : Word} (hres : fieldReserved w = 0#16) (hop : fieldOp w = 2#4) :
    (∃ why, decodeHeader w = .error why) ↔ 3#3 ≤ fieldCh w ∨ fieldCb w ≠ 0#1 ∨ fieldTid w ≠ 0#8 := by
  cases hch : channelOfCode (fieldCh w) with
  | none => simp [decodeHeader, hres, hop, hch, (channelOfCode_eq_none_iff _).1 hch]
  | some c =>
    have hlow : ¬ 3#3 ≤ fieldCh w := fun h => by simp [(channelOfCode_eq_none_iff _).2 h] at hch
    simp [decodeHeader, hres, hop, hch, hlow, checkUnused_error_iff]

/-- R101 lists exactly the headers that the decoder rejects. -/
theorem decodeHeader_error_iff (w : Word) : (∃ why, decodeHeader w = .error why) ↔ IllegalFields w := by
  unfold IllegalFields
  by_cases hres : fieldReserved w = 0#16
  · rcases opcode_cases (fieldOp w) with hop | hop | hop | hop | hop | hop | hop | hop | hop | hop
    case inl => exact iff_of_true ⟨_, decodeHeader_of_reserved_opcode hres hop⟩ (hop.imp_right .inl)
    case inr.inr.inl => simp [decodeHeader_hash_error_iff hres hop, hop, hres]
    all_goals simp [decodeHeader, hop, hres, checkUnused_error_iff]
  · simp [decodeHeader_of_reserved_bits hres, hres]

/-! ## The opcode table's match and mask words -/

/-- A field of a mask: the bits that a command does not use are compared, the others are not. -/
def maskField (n : Nat) (used : Bool) : BitVec n := if used then 0#n else BitVec.allOnes n

theorem and_maskField_eq_zero_iff {n : Nat} (x : BitVec n) (used : Bool) :
    x &&& maskField n used = 0#n ↔ (used = false → x = 0#n) := by
  cases used <;> simp [maskField]

/-- The mask word of an opcode row: `op` and the reserved bits are always compared. -/
def headerMask (usesCh usesCb usesTid : Bool) : Word :=
  BitVec.allOnes 16 ++ maskField 8 usesTid ++ maskField 1 usesCb ++ maskField 3 usesCh ++ BitVec.allOnes 4

theorem headerMask_fields (usesCh usesCb usesTid : Bool) :
    fieldReserved (headerMask usesCh usesCb usesTid) = BitVec.allOnes 16 ∧
      fieldOp (headerMask usesCh usesCb usesTid) = BitVec.allOnes 4 ∧
      fieldCh (headerMask usesCh usesCb usesTid) = maskField 3 usesCh ∧
      fieldCb (headerMask usesCh usesCb usesTid) = maskField 1 usesCb ∧
      fieldTid (headerMask usesCh usesCb usesTid) = maskField 8 usesTid := by
  revert usesCh usesCb usesTid; decide

/-- A word matches an opcode row exactly when it has the row's opcode and every bit that the row's command does not use
is zero. -/
theorem and_headerMask_eq_iff (w : Word) (op : BitVec 4) (usesCh usesCb usesTid : Bool) :
    w &&& headerMask usesCh usesCb usesTid = headerOfFields op 0 0 0 ↔
      fieldReserved w = 0#16 ∧ fieldOp w = op ∧ (usesCh = false → fieldCh w = 0#3) ∧
        (usesCb = false → fieldCb w = 0#1) ∧ (usesTid = false → fieldTid w = 0#8) := by
  obtain ⟨hres, hop, hch, hcb, htid⟩ := headerMask_fields usesCh usesCb usesTid
  simp only [word_eq_iff_fields, fieldReserved_and, fieldOp_and, fieldCh_and, fieldCb_and, fieldTid_and,
    fieldReserved_headerOfFields, fieldOp_headerOfFields, fieldCh_headerOfFields, fieldCb_headerOfFields,
    fieldTid_headerOfFields, hres, hop, hch, hcb, htid, BitVec.and_allOnes, BitVec.ofNat_eq_ofNat,
    and_maskField_eq_zero_iff]

/-- R96: the match and mask words of the nine commands, in opcode order. -/
def opcodeRows : List (Word × Word) :=
  [(0x00000001#32, 0xFFFFFFFF#32), (0x00000002#32, 0xFFFFFF8F#32), (0x00000003#32, 0xFFFF00FF#32),
    (0x00000004#32, 0xFFFF00FF#32), (0x00000005#32, 0xFFFF00FF#32), (0x00000006#32, 0xFFFF00FF#32),
    (0x00000007#32, 0xFFFF00FF#32), (0x00000008#32, 0xFFFF00FF#32), (0x00000009#32, 0xFFFF007F#32)]

theorem opcodeRows_eq :
    opcodeRows =
      [(headerOfFields 1 0 0 0, headerMask false false false), (headerOfFields 2 0 0 0, headerMask true false false),
        (headerOfFields 3 0 0 0, headerMask false false true), (headerOfFields 4 0 0 0, headerMask false false true),
        (headerOfFields 5 0 0 0, headerMask false false true), (headerOfFields 6 0 0 0, headerMask false false true),
        (headerOfFields 7 0 0 0, headerMask false false true), (headerOfFields 8 0 0 0, headerMask false false true),
        (headerOfFields 9 0 0 0, headerMask false true true)] := by
  decide

/-- A word matches some row exactly when its opcode is a command's and the fields unused by that command are zero. -/
theorem matches_row_iff (w : Word) :
    (∃ r ∈ opcodeRows, w &&& r.2 = r.1) ↔
      fieldReserved w = 0#16 ∧ ¬ (fieldOp w = 0#4 ∨ 10#4 ≤ fieldOp w) ∧ (fieldOp w ≠ 2#4 → fieldCh w = 0#3) ∧
        (fieldOp w ≠ 9#4 → fieldCb w = 0#1) ∧ (fieldOp w = 1#4 ∨ fieldOp w = 2#4 → fieldTid w = 0#8) := by
  simp only [opcodeRows_eq, List.exists_mem_cons_iff, and_headerMask_eq_iff]
  rcases opcode_cases (fieldOp w) with hop | hop | hop | hop | hop | hop | hop | hop | hop | hop
  case inl =>
    have hne : ∀ k ∈ [1#4, 2#4, 3#4, 4#4, 5#4, 6#4, 7#4, 8#4, 9#4], fieldOp w ≠ k := by
      generalize fieldOp w = op at hop
      revert op; decide
    simp only [List.forall_mem_cons] at hne
    simp [hop, hne]
  all_goals simp [hop]

/-- R101 in the terms of the opcode table: HASH's row leaves its channel open, so a reserved channel is named apart. -/
theorem illegalFields_iff_no_row (w : Word) :
    IllegalFields w ↔
      (∀ r ∈ opcodeRows, w &&& r.2 ≠ r.1) ∨ (w &&& 0xFFFFFF8F#32 = 2#32 ∧ 2#3 < fieldCh w) := by
  have hrow : (∀ r ∈ opcodeRows, w &&& r.2 ≠ r.1) ↔ ¬ ∃ r ∈ opcodeRows, w &&& r.2 = r.1 := by
    simp only [not_exists, not_and, ne_eq]
  have hhash : w &&& 0xFFFFFF8F#32 = 2#32 ↔ _ := and_headerMask_eq_iff w 2 true false false
  have hlt : 2#3 < fieldCh w ↔ 3#3 ≤ fieldCh w := by generalize fieldCh w = c; revert c; decide
  rw [hrow, matches_row_iff, hhash, hlt, IllegalFields]
  by_cases hop : fieldOp w = 2#4
  · simp only [hop]
    grind
  · grind

end Sys2Proof
end

-- ==== Packets and their commands (`spec/30_encoding.md` R92 to R95) ====
section
namespace Sys2Proof

/-! ## Packets (`spec/30_encoding.md` R92, R94, R101) -/

theorem decodePacket_of_header {w : Word} {h : Header} (hw : decodeHeader w = .ok h) (rest : List Byte) :
    decodePacket (bytesOfWord w ++ rest) = decodeBody h rest := by
  simp [decodePacket, needPart, hw]

theorem decodePacket_of_illegal {w : Word} {why : IllegalHeader} (hw : decodeHeader w = .error why) (rest : List Byte) :
    decodePacket (bytesOfWord w ++ rest) = .illegal w why rest := by
  simp [decodePacket, needPart, hw]

theorem needPart_ne_illegal {α : Type} (part : Option (α × List Byte)) {k : α → List Byte → Fetched} {w : Word}
    {why : IllegalHeader} {rest : List Byte} (hk : ∀ x r, k x r ≠ .illegal w why rest) :
    needPart part k ≠ .illegal w why rest := by
  cases part with
  | none => simp [needPart]
  | some xr => exact hk xr.1 xr.2

/-- Past a legal header nothing is illegal: the parts that follow are there or still to come. -/
theorem decodeBody_ne_illegal (h : Header) (bytes : List Byte) (w : Word) (why : IllegalHeader) (rest : List Byte) :
    decodeBody h bytes ≠ .illegal w why rest := by
  cases h <;> simp [decodeBody, needPart_ne_illegal]

theorem decodePacket_illegal_iff (w : Word) (rest : List Byte) :
    (∃ why, decodePacket (bytesOfWord w ++ rest) = .illegal w why rest) ↔ IllegalFields w := by
  rw [← decodeHeader_error_iff]
  cases hw : decodeHeader w with
  | ok h => simp [decodePacket_of_header hw, decodeBody_ne_illegal]
  | error why => simp [decodePacket_of_illegal hw]

/-! ## Packets read back (`spec/30_encoding.md` R92 to R95) -/

theorem decodeHeader_encodeHeader (h : Header) : decodeHeader (encodeHeader h) = .ok h := by
  cases h with
  | release tid cb => cases cb <;> simp [decodeHeader, encodeHeader, checkUnused]
  | _ => simp [decodeHeader, encodeHeader, checkUnused]

theorem decodeBody_encodeBody {i : Instr} (hwf : i.wf = true) (rest : List Byte) :
    decodeBody (headerOf i) (encodeBody i ++ rest) = .packet i rest := by
  cases i with
  | hash | get | del => simp [headerOf, encodeBody, decodeBody, needPart, takeKey_encodeKey _ hwf]
  | put => simp [headerOf, encodeBody, decodeBody, needPart, takeKey_encodeKey _ hwf]
  | create | getindex => simp [headerOf, encodeBody, decodeBody, needPart]
  | generate | len | release => rfl

/-- The packet of a well-formed command decodes to it, whatever follows. -/
theorem decodePacket_encode {i : Instr} (hwf : i.wf = true) (rest : List Byte) :
    decodePacket (encode i ++ rest) = .packet i rest := by
  rw [encode, List.append_assoc, decodePacket_of_header (decodeHeader_encodeHeader _), decodeBody_encodeBody hwf]

end Sys2Proof
end

-- ==== An illegal header (`spec/30_encoding.md` R101) ====
section
namespace Sys2Proof.Machine

/-! ## The block stops at an illegal header (`spec/30_encoding.md` R101, `spec/60_exceptions.md` R249 to R251) -/

/-- The fault of an illegal header, its response written out: status 5, cause 6. -/
theorem die_illegal (s : State) :
    s.die .illegal =
      { s with
        fault := true
        fcause := 6#4
        rsp := s.rsp ++ [5#8, 0#8, 0#8, 0#8, 6#8, 0#8, 0#8, 0#8]
        tx := []
        phase := .dead } := by
  have hbytes : bytesOfWord 5#32 ++ bytesOfWord ((causeCode .illegal).setWidth 32) =
      [5#8, 0#8, 0#8, 0#8, 6#8, 0#8, 0#8, 0#8] := by decide
  rw [State.die, List.append_assoc, hbytes]
  rfl

/-- The four bytes of the header are taken and nothing after them. -/
theorem step_of_illegal_header {s : State} {w : Word} {why : IllegalHeader} {rest : List Byte}
    (hp : s.phase = .idle) (hf : s.fault = false) (hcmd : s.cmd = bytesOfWord w ++ rest)
    (hw : decodeHeader w = .error why) : step s = .next ({ s with opc := w, cmd := rest }.die .illegal) := by
  simp [step, hp, hf, stepIdle, fetch, hcmd, decodePacket_of_illegal hw, rejectHeader, emit_raiseFault, State.accept]

theorem step_of_dead {s : State} (hp : s.phase = .dead) : step s = .fault .dead := by
  simp [step, hp]

theorem tick_of_dead {s : State} (hp : s.phase = .dead) {p : Pins} (hrst : p.rst = false) : tick p s = s := by
  simp [tick, hp, hrst]

/-- Settles O4: the decoder's rejections read off the header's fields, and the step of a rejected header. -/
theorem illegalHeaderFaults : Obligations.IllegalHeaderFaults := by
  intro w rest
  refine ⟨decodePacket_illegal_iff w rest, illegalFields_iff_no_row w, fun s hill hp hf hcmd => ?_⟩
  obtain ⟨why, hw⟩ := (decodeHeader_error_iff w).2 hill
  exact ⟨_, step_of_illegal_header hp hf hcmd hw, die_illegal _, step_of_dead rfl, fun _ => tick_of_dead rfl⟩

end Sys2Proof.Machine
end

-- ==== Assembler lines (`spec/30_encoding.md` R120, R121) ====
section
namespace Sys2Proof.Machine

/-! ## The scanner lets no zero byte into a key (`spec/30_encoding.md` R95, R120) -/

/-- A key literal that has been read holds no zero byte. -/
def Token.keysWf : Token → Bool
  | .word _ => true
  | .key bytes => keyWf bytes
  | .comma => true

/-- Nor do the bytes of a literal that is still being read. (A high digit of 16 would let two digits name a multiple of
256, whose byte is zero.) -/
def ScanMode.keysWf : ScanMode → Bool
  | .between => true
  | .inWord _ => true
  | .inKey acc => keyWf acc
  | .afterBackslash acc => keyWf acc
  | .hexHigh acc => keyWf acc
  | .hexLow acc high => keyWf acc && decide (high < 16)
  | .inComment => true
  | .failed => true

/-- The scanner's invariant. -/
def Scan.keysWf (s : Scan) : Prop := (∀ x ∈ s.toks, x.keysWf = true) ∧ s.mode.keysWf = true

theorem keyWf_cons (b : Byte) (key : Key) : keyWf (b :: key) = true ↔ b ≠ 0#8 ∧ keyWf key = true := by
  simp [keyWf]

theorem keyWf_reverse (key : Key) : keyWf key.reverse = keyWf key := List.all_reverse

/-- The byte of a character code or of two hexadecimal digits is zero only for the number zero. -/
theorem ofNat_ne_zero_of_lt {n : Nat} (hpos : 0 < n) (hlt : n < 256) : BitVec.ofNat 8 n ≠ 0#8 := by
  intro h
  have := congrArg BitVec.toNat h
  simp at this
  omega

/-- Characters are ordered by their codes. -/
theorem char_le_iff_toNat_le (c d : Char) : c ≤ d ↔ c.toNat ≤ d.toNat := Iff.rfl

theorem hexDigit_lt {c : Char} {d : Nat} (h : hexDigit c = some d) : d < 16 := by
  have hcodes : '0'.toNat = 48 ∧ '9'.toNat = 57 ∧ 'a'.toNat = 97 ∧ 'f'.toNat = 102 ∧ 'A'.toNat = 65 ∧
      'F'.toNat = 70 := by decide
  unfold hexDigit at h
  simp only [char_le_iff_toNat_le] at h
  split_ifs at h <;> simp only [Option.some.injEq] at h <;> omega

/-- Between tokens a character can only open a key literal, and that one is empty. -/
theorem scanBetween_keysWf {toks : List Token} (htoks : ∀ x ∈ toks, x.keysWf = true) (c : Char) :
    (scanBetween toks c).keysWf := by
  unfold scanBetween
  split_ifs <;> simp_all [Scan.keysWf, ScanMode.keysWf, Token.keysWf, keyWf]

/-- The only bytes that enter a literal are a nonzero ASCII code, an escaped character and a nonzero `\xHH`. -/
theorem scanChar_keysWf {s : Scan} (hs : s.keysWf) (c : Char) : (scanChar s c).keysWf := by
  obtain ⟨toks, mode⟩ := s
  obtain ⟨htoks, hmode⟩ := hs
  cases mode with
  | between => exact scanBetween_keysWf htoks c
  | inWord acc =>
    simp only [scanChar]
    split
    · exact ⟨htoks, rfl⟩
    · exact scanBetween_keysWf (List.forall_mem_cons.2 ⟨rfl, htoks⟩) c
  | inKey acc =>
    simp only [scanChar]
    split_ifs with hquote hback hascii
    · exact ⟨List.forall_mem_cons.2 ⟨(keyWf_reverse acc).trans hmode, htoks⟩, rfl⟩
    · exact ⟨htoks, hmode⟩
    · exact ⟨htoks, (keyWf_cons _ _).2 ⟨ofNat_ne_zero_of_lt hascii.1 (by omega), hmode⟩⟩
    · exact ⟨htoks, rfl⟩
  | afterBackslash acc =>
    simp only [scanChar]
    split_ifs with hself hx
    · refine ⟨htoks, (keyWf_cons _ _).2 ⟨?_, hmode⟩⟩
      rcases hself with rfl | rfl <;> decide
    · exact ⟨htoks, hmode⟩
    · exact ⟨htoks, rfl⟩
  | hexHigh acc =>
    simp only [scanChar]
    split
    · next d hd => exact ⟨htoks, by simpa [ScanMode.keysWf, hexDigit_lt hd] using hmode⟩
    · exact ⟨htoks, rfl⟩
  | hexLow acc high =>
    simp only [scanChar]
    simp only [ScanMode.keysWf, Bool.and_eq_true, decide_eq_true_eq] at hmode
    obtain ⟨hacc, hhigh⟩ := hmode
    split
    · next d hd =>
      have hlow := hexDigit_lt hd
      split_ifs with hzero
      · exact ⟨htoks, rfl⟩
      · exact ⟨htoks, (keyWf_cons _ _).2 ⟨ofNat_ne_zero_of_lt (by omega) (by omega), hacc⟩⟩
    · exact ⟨htoks, rfl⟩
  | inComment => exact ⟨htoks, hmode⟩
  | failed => exact ⟨htoks, hmode⟩

theorem scan_keysWf (line : List Char) {s : Scan} (hs : s.keysWf) : (line.foldl scanChar s).keysWf := by
  induction line generalizing s with
  | nil => exact hs
  | cons c line ih => exact ih (scanChar_keysWf hs c)

theorem tokens_keysWf {line : List Char} {toks : List Token} (h : tokens line = some toks) :
    ∀ x ∈ toks, x.keysWf = true := by
  obtain ⟨htoks, -⟩ : (line.foldl scanChar ⟨[], .between⟩).keysWf := scan_keysWf line ⟨by simp, rfl⟩
  unfold tokens at h
  generalize line.foldl scanChar ⟨[], .between⟩ = s at h htoks
  obtain ⟨read, mode⟩ := s
  cases mode with
  | between | inComment =>
    obtain rfl : read.reverse = toks := Option.some.inj h
    simpa using htoks
  | inWord acc =>
    obtain rfl : (Token.word acc.reverse :: read).reverse = toks := Option.some.inj h
    have hcons : ∀ x ∈ Token.word acc.reverse :: read, x.keysWf = true := List.forall_mem_cons.2 ⟨rfl, htoks⟩
    exact fun x hx => hcons x (List.mem_reverse.1 hx)
  | inKey | afterBackslash | hexHigh | hexLow | failed => cases h

/-! ## A line's command is well formed (`spec/30_encoding.md` R120, R121) -/

theorem assembleTable_wf {m : List Char} {tid : TableId} {i : Instr} (h : assembleTable m tid = some i) :
    i.wf = true := by
  unfold assembleTable at h
  split_ifs at h <;> cases h <;> rfl

theorem assembleTableWord_wf {m x : List Char} {tid : TableId} {i : Instr} (h : assembleTableWord m tid x = some i) :
    i.wf = true := by
  unfold assembleTableWord at h
  split_ifs at h
  · obtain ⟨size, -, rfl⟩ := Option.map_eq_some_iff.1 h
    rfl
  · obtain ⟨idx, -, rfl⟩ := Option.map_eq_some_iff.1 h
    rfl
  · cases h
    rfl

theorem assembleTableKey_wf {m : List Char} {tid : TableId} {key : Key} {i : Instr} (hkey : keyWf key = true)
    (h : assembleTableKey m tid key = some i) : i.wf = true := by
  unfold assembleTableKey at h
  split_ifs at h <;> cases h <;> exact hkey

/-- The key of the command is the key token of the line. -/
theorem assembleTokens_wf {toks : List Token} {i : Instr} (htoks : ∀ x ∈ toks, x.keysWf = true)
    (h : assembleTokens toks = some i) : i.wf = true := by
  unfold assembleTokens at h
  split at h
  · split_ifs at h
    cases h
    rfl
  · obtain ⟨tid, -, hi⟩ := Option.bind_eq_some_iff.1 h
    exact assembleTable_wf hi
  · obtain ⟨tid, -, hi⟩ := Option.bind_eq_some_iff.1 h
    exact assembleTableWord_wf hi
  · next key =>
    have hkey : keyWf key = true := htoks (.key key) (by simp)
    split_ifs at h
    · obtain ⟨ch, -, rfl⟩ := Option.map_eq_some_iff.1 h
      exact hkey
    · obtain ⟨tid, -, hi⟩ := Option.bind_eq_some_iff.1 h
      exact assembleTableKey_wf hkey hi
  · next key x =>
    have hkey : keyWf key = true := htoks (.key key) (by simp)
    split_ifs at h
    obtain ⟨tid, -, hv⟩ := Option.bind_eq_some_iff.1 h
    obtain ⟨v, -, rfl⟩ := Option.map_eq_some_iff.1 hv
    exact hkey
  · cases h

theorem assemble_wf {line : List Char} {i : Instr} (h : assemble line = some i) : i.wf = true := by
  obtain ⟨toks, htoks, hi⟩ := Option.bind_eq_some_iff.1 h
  exact assembleTokens_wf (tokens_keysWf htoks) hi

/-- Settles O7: the scanner keeps zero bytes out of keys, and the packet of a well-formed command reads back. -/
theorem assembledLineIsOneCommand : Obligations.AssembledLineIsOneCommand := fun _ _ rest h =>
  ⟨assemble_wf h, decodePacket_encode (assemble_wf h) rest⟩

end Sys2Proof.Machine
end

-- ==== Words and worked encodings (`spec/30_encoding.md` R91, R122) ====
section
namespace Sys2Proof.Machine

/-! ## Words in channel order (`spec/30_encoding.md` R91) -/

/-- A byte of a word, by division. -/
theorem extractLsb'_eq_ofNat_div (w : Word) (k : Nat) : w.extractLsb' k 8 = BitVec.ofNat 8 (w.toNat / 2 ^ k) := by
  rw [← Nat.shiftRight_eq_div_pow]
  rfl

theorem bytesOfWord_eq_ofNat (w : Word) :
    bytesOfWord w = [BitVec.ofNat 8 w.toNat, BitVec.ofNat 8 (w.toNat / 256), BitVec.ofNat 8 (w.toNat / 65536),
      BitVec.ofNat 8 (w.toNat / 16777216)] := by
  simp [bytesOfWord, extractLsb'_eq_ofNat_div]

/-- Settles O5: the bytes are taken by division, the word read back, and each packet and response is unfolded once. -/
theorem wordsTravelLeastSignificantByteFirst : Obligations.WordsTravelLeastSignificantByteFirst := fun w rest =>
  ⟨bytesOfWord_eq_ofNat w, takeWord_bytesOfWord w rest, by simp [encode, encodeBody, encodeKey, headerOf],
    fun _ => rfl⟩

/-- An assembled line's packet needs no decoding of its own: the packet of a well-formed command reads back. -/
theorem worked_encoding {line : List Char} {bytes : List Byte} (i : Instr) (hline : assemble line = some i)
    (hbytes : encode i = bytes) :
    ∃ i, assemble line = some i ∧ encode i = bytes ∧ decodePacket bytes = .packet i [] := by
  have hdec := decodePacket_encode (assemble_wf hline) []
  rw [List.append_nil, hbytes] at hdec
  exact ⟨i, hline, hbytes, hdec⟩

/-- Settles O6: each line assembles to its command and encodes to its bytes; that the bytes decode is no new fact. -/
theorem workedEncodings : Obligations.WorkedEncodings := by
  simp only [Obligations.WorkedEncodings, List.forall_mem_cons]
  refine ⟨worked_encoding .generate ?_ ?_, worked_encoding (.hash .a [0x61#8, 0x62#8]) ?_ ?_,
    worked_encoding (.create 0 11#32) ?_ ?_, worked_encoding (.put 0 1#32 [0x61#8]) ?_ ?_,
    worked_encoding (.get 1 []) ?_ ?_, worked_encoding (.getindex 0 10#32) ?_ ?_,
    worked_encoding (.release 1 true) ?_ ?_, List.forall_mem_nil _⟩
  all_goals decide

end Sys2Proof.Machine
end

-- ==== The LCG and the order of generation (`spec/40_crypttable.md` R131 to R135) ====
section
namespace Sys2Proof.Machine

/-! ## The LCG (`spec/40_crypttable.md` R132, R133) -/

/-- The remainder fits LSEED's 22 bits, so storing it loses nothing. -/
theorem lcgStep_toNat (seed : BitVec 22) : (lcgStep seed).toNat = (seed.toNat * 125 + 3) % 0x2AAAAB := by
  have hlt : (seed.toNat * 125 + 3) % 0x2AAAAB < 2 ^ 22 := (Nat.mod_lt _ (by decide)).trans (by decide)
  exact (BitVec.toNat_ofNat _ _).trans (Nat.mod_eq_of_lt hlt)

theorem lcgSeq_lt (n : Nat) : (lcgSeq n).toNat < 0x2AAAAB := by
  cases n with
  | zero => decide
  | succ n => exact (lcgStep_toNat (lcgSeq n)).trans_lt (Nat.mod_lt _ (by decide))

/-- Settles O12: a step is exact because its remainder fits, and the bound on the seed bounds the product-sum. -/
theorem lcgStepIsExact : Obligations.LcgStepIsExact := by
  refine ⟨rfl, fun n => ?_⟩
  have hlt := lcgSeq_lt n
  exact ⟨lcgStep_toNat (lcgSeq n), hlt, by omega, by omega⟩

/-! ## The loop of GENERATE (`spec/40_crypttable.md` R131, R135) -/

/-- The last iteration of the loop can be taken last. -/
theorem genLoop_succ (n : Nat) (x : GenRegs × Memory Word) : genLoop (n + 1) x = genIter (genLoop n x) := by
  induction n generalizing x with
  | zero => rfl
  | succ n ih => exact ih (genIter x)

/-- LSEED, I1 and PASS after `k` passes: two LCG steps a pass, five passes to a value of I1. -/
def genRegsAt (k : Nat) : GenRegs := ⟨lcgSeq (2 * k), BitVec.ofNat 8 (k / 5), BitVec.ofNat 3 (k % 5)⟩

theorem genRegsAt_pass_toNat (k : Nat) : (genRegsAt k).pass.toNat = k % 5 := by
  simp only [genRegsAt, BitVec.toNat_ofNat]
  omega

theorem genRegsAt_i1_toNat {k : Nat} (hk : k < 1280) : (genRegsAt k).i1.toNat = k / 5 := by
  simp only [genRegsAt, BitVec.toNat_ofNat]
  omega

theorem genIndex_genRegsAt {k : Nat} (hk : k < 1280) : genIndex (genRegsAt k) = generatedIndex k := by
  rw [genIndex, genRegsAt_i1_toNat hk, genRegsAt_pass_toNat, generatedIndex]

/-- One pass moves the registers on; PASS 4 wraps to 0 where the quotient by 5 grows. -/
theorem genIter_genRegsAt (k : Nat) (ct : Memory Word) :
    genIter (genRegsAt k, ct) =
      (genRegsAt (k + 1),
        ctWrite ct (genIndex (genRegsAt k)) (ctWordOfSteps (lcgSeq (2 * k + 1)) (lcgSeq (2 * k + 2)))) := by
  simp only [genIter, genRegsAt_pass_toNat]
  split
  · next hlast =>
    have hdiv : (k + 1) / 5 = k / 5 + 1 := by omega
    have hmod : (k + 1) % 5 = 0 := by omega
    simp only [genRegsAt, hdiv, hmod, BitVec.ofNat_add]
    rfl
  · next hlast =>
    have hdiv : (k + 1) / 5 = k / 5 := by omega
    have hmod : (k + 1) % 5 = k % 5 + 1 := by omega
    simp only [genRegsAt, hdiv, hmod, BitVec.ofNat_add]
    rfl

theorem genLoop_regs (k : Nat) (ct : Memory Word) : (genLoop k (genRegsInit, ct)).1 = genRegsAt k := by
  induction k with
  | zero => rfl
  | succ k ih => rw [genLoop_succ, ← Prod.eta (genLoop k _), ih, genIter_genRegsAt]

/-- The memory after pass `k` (from 0) is the memory before it with the word of steps `2k+1` and `2k+2` written. -/
theorem genLoop_succ_mem {k : Nat} (hk : k < 1280) (ct : Memory Word) :
    (genLoop (k + 1) (genRegsInit, ct)).2 =
      ctWrite (genLoop k (genRegsInit, ct)).2 (generatedIndex k)
        (ctWordOfSteps (lcgSeq (2 * k + 1)) (lcgSeq (2 * k + 2))) := by
  rw [genLoop_succ, ← Prod.eta (genLoop k _), genLoop_regs, genIter_genRegsAt, genIndex_genRegsAt hk]

/-- Settles O11: the registers before pass `k` in closed form, and its one write. -/
theorem generationOrder : Obligations.GenerationOrder := by
  intro k ct hk
  have hregs := genLoop_regs k ct
  refine ⟨congrArg GenRegs.lseed hregs, ?_, ?_, fun n => ?_⟩
  · rw [hregs, genRegsAt_i1_toNat hk]
  · rw [hregs, genRegsAt_pass_toNat]
  · rw [genLoop_succ_mem hk, ctRead_ctWrite, generatedIndex]
    exact if_congr eq_comm rfl rfl

end Sys2Proof.Machine
end

-- ==== The hash (`spec/41_hash.md` R150 to R157) ====
section
namespace Sys2Proof.Machine

/-! ## A lane's run (`spec/41_hash.md` R151 to R153) -/

@[simp] theorem laneRun_nil (ct : Memory Word) (c : Channel) : laneRun ct c [] = laneInit := rfl

/-- The last byte of a key is the last step of its lane. -/
theorem laneRun_concat (ct : Memory Word) (c : Channel) (key : Key) (ch : Byte) :
    laneRun ct c (key ++ [ch]) = laneStep ct c (laneRun ct c key) ch :=
  List.foldl_concat _ _ _ _

/-- R152, second line: it adds the new S1 and the old S2, the latter twice. -/
theorem laneStep_s2 (ct : Memory Word) (c : Channel) (l : Lane) (ch : Byte) :
    (laneStep ct c l ch).s2 = ch.setWidth 32 + (laneStep ct c l ch).s1 + l.s2 + (l.s2 <<< 5) + 3#32 := rfl

/-- The second line in arithmetic modulo 2^32: zero extension keeps the byte's value, the shift multiplies by 32. -/
theorem laneStep_s2_toNat (ct : Memory Word) (c : Channel) (l : Lane) (ch : Byte) :
    (laneStep ct c l ch).s2.toNat =
      (ch.toNat + (laneStep ct c l ch).s1.toNat + l.s2.toNat + l.s2.toNat * 32 % 4294967296 + 3) % 4294967296 := by
  have hch : (ch.setWidth 32).toNat = ch.toNat := BitVec.toNat_setWidth_of_le (by decide)
  have hshift : (l.s2 <<< 5).toNat = l.s2.toNat * 32 % 4294967296 := by
    rw [BitVec.toNat_shiftLeft, Nat.shiftLeft_eq]
  simp only [laneStep_s2, BitVec.toNat_add, hch, hshift, BitVec.toNat_ofNat, Nat.reducePow]
  omega

/-- Settles O15: the run over one more byte is one more step, read off by its two lines. -/
theorem hashStepFormula : Obligations.HashStepFormula := by
  refine fun ct c => ⟨laneRun_nil ct c, fun key ch => ?_⟩
  simp only [laneRun_concat]
  refine ⟨?_, laneStep_s2_toNat ct c (laneRun ct c key) ch, rfl⟩
  rw [laneStep_s1, ctIndex_eq_mul_add, BitVec.ofNat_add, BitVec.ofNat_toNat, BitVec.ofNat_toNat,
    BitVec.setWidth_eq, BitVec.setWidth_eq]

/-! ## What a hash reads of CT (`spec/41_hash.md` R156) -/

/-- A step reads one word of CT. -/
theorem laneStep_congr {ct ct' : Memory Word} {c : Channel} {ch : Byte}
    (h : ctRead ct (ctIndex c ch) = ctRead ct' (ctIndex c ch)) (l : Lane) :
    laneStep ct c l ch = laneStep ct' c l ch := by
  simp only [laneStep, h]

/-- A run reads the words its key's bytes select and no others. -/
theorem laneRun_congr {ct ct' : Memory Word} {c : Channel} {key : Key}
    (h : ∀ ch ∈ key, ctRead ct (ctIndex c ch) = ctRead ct' (ctIndex c ch)) : laneRun ct c key = laneRun ct' c key :=
  List.foldl_ext _ _ _ fun l ch hch => laneStep_congr (h ch hch) l

theorem keyHash_congr {ct ct' : Memory Word} {c : Channel} {key : Key}
    (h : ∀ ch ∈ key, ctRead ct (ctIndex c ch) = ctRead ct' (ctIndex c ch)) : keyHash ct c key = keyHash ct' c key :=
  congrArg Lane.s1 (laneRun_congr h)

/-- Every index a lane forms lies within the generated words. -/
theorem ctIndex_lt_ctWords (c : Channel) (ch : Byte) : ctIndex c ch < Config.ctWords :=
  (ctIndex_le c ch).trans_lt (by decide)

/-- Tables that hold the constant give every key the same hash. -/
theorem keyHash_of_ctIsConstant {ct ct' : Memory Word} (hct : CtIsConstant ct) (hct' : CtIsConstant ct') (c : Channel)
    (key : Key) : keyHash ct c key = keyHash ct' c key :=
  keyHash_congr fun ch _ => (hct _ (ctIndex_lt_ctWords c ch)).trans (hct' _ (ctIndex_lt_ctWords c ch)).symm

/-! ## The command HASH (`spec/41_hash.md` R157) -/

/-- With FAULT = 0 and GEN_DONE = 1 no check of HASH fails, and its own part raises no fault. -/
theorem exec_hash {s : State} (hf : s.fault = false) (hg : s.genDone = true) (c : Channel) (key : Key) :
    exec (.hash c key) s =
      .next (((s.loadHeader (.hash c)).loadLanes (s.lanes.set c (laneRun s.ct c key))).answer
        (okResponse (keyHash s.ct c key))) := by
  have hcheck : headerCheck (.hash c) s = none := (needGenerated_eq_none s).2 hg
  calc exec (.hash c key) s
      = .next (emit (hashBody c key (s.loadHeader (.hash c)))) := runCommand_body _ _ hf hcheck
    _ = _ := congrArg _ (emit_of_no_fault _ hf)

/-- Settles O20: what is appended to the response channel depends on the hash alone, and that on the constant. -/
theorem hashIsPure : Obligations.HashIsPure := by
  intro c key s s' hf hf' hg hg' hct hct'
  refine ⟨_, _, exec_hash hf hg c key, exec_hash hf' hg' c key, ?_⟩
  simp [keyHash_of_ctIsConstant hct hct' c key]

/-! ## The empty key (`spec/41_hash.md` R154) -/

theorem keyHash_nil (ct : Memory Word) (c : Channel) : keyHash ct c [] = 0x7FED7FED#32 := rfl

/-- The response to HASH of the empty key: status OK, then the seed. -/
theorem okResponse_seed_bytes :
    (okResponse 0x7FED7FED#32).bytes = [0#8, 0#8, 0#8, 0#8, 0xED#8, 0x7F#8, 0xED#8, 0x7F#8] := by
  decide

/-- Settles O14: no byte, no step; and the packets decode because the empty key holds no zero byte. -/
theorem emptyKeyHashesToSeed : Obligations.EmptyKeyHashesToSeed := by
  refine ⟨keyHash_nil, fun s c hf hg => ?_, fun rest c tid v => ?_⟩
  · refine ⟨_, exec_hash hf hg c [], ⟨rfl, rfl, rfl, rfl, rfl, rfl, rfl⟩, rfl, ?_⟩
    simp only [State.answer_rsp, State.loadLanes_rsp, State.loadHeader_rsp, keyHash_nil, okResponse_seed_bytes]
  · exact ⟨decodePacket_encode rfl rest, decodePacket_encode rfl rest, decodePacket_encode rfl rest,
      decodePacket_encode rfl rest⟩

end Sys2Proof.Machine
end

-- ==== The words of a response (`spec/30_encoding.md` R110) ====
section
namespace Sys2Proof.Machine

theorem statusBetween_of_rsp {s t : State} {r : Response} (h : t.rsp = s.rsp ++ r.bytes) :
    statusBetween s t = some (statusCode r.status) := by
  simp [statusBetween, h, Response.bytes]

theorem resultBetween_of_rsp {s t : State} {r : Response} (h : t.rsp = s.rsp ++ r.bytes) :
    resultBetween s t = some r.result := by
  have hdrop : t.rsp.drop (s.rsp.length + 4) = bytesOfWord r.result ++ r.values.flatMap bytesOfWord := by
    rw [h, List.drop_length_add_append, Response.bytes, List.append_assoc, ← bytesOfWord_length (statusCode r.status),
      List.drop_left]
  rw [resultBetween, hdrop, takeWord_bytesOfWord]
  rfl

/-- The response of the fatal fault (`spec/60_exceptions.md` R250) as a response packet. -/
theorem State.die_rsp_eq_bytes (s : State) (c : Cause) :
    (s.die c).rsp = s.rsp ++ (raiseFault c s).2.bytes := by
  simp [Response.bytes, statusCode]

end Sys2Proof.Machine
end

-- ==== Counting occupied slots (`spec/10_state.md` R42 b) ====
section
namespace Sys2Proof.Machine

theorem occupiedCount_succ (m : Memory Bucket) (n : Nat) :
    occupiedCount m (n + 1) = occupiedCount m n + if (slotRead m n).isSome then 1 else 0 := by
  simp [occupiedCount, List.range_succ]

/-- Every slot is counted exactly when every slot is occupied. -/
theorem occupiedCount_eq_iff (m : Memory Bucket) (n : Nat) :
    occupiedCount m n = n ↔ ∀ i < n, (slotRead m i).isSome = true := by
  have h := List.countP_eq_length (p := fun i => (slotRead m i).isSome) (l := List.range n)
  simpa only [occupiedCount, List.length_range, List.mem_range] using h

theorem occupiedCount_le (m : Memory Bucket) (n : Nat) : occupiedCount m n ≤ n :=
  List.countP_le_length.trans_eq List.length_range

theorem occupiedCount_lt {m : Memory Bucket} {n i : Nat} (hi : i < n) (hempty : slotRead m i = none) :
    occupiedCount m n < n := by
  refine (occupiedCount_le m n).lt_of_ne fun h => ?_
  have hsome := (occupiedCount_eq_iff m n).1 h i hi
  simp [hempty] at hsome

theorem occupiedCount_clearBelow (m : Memory Bucket) (n : Nat) : occupiedCount (Memory.clearBelow m n) n = 0 := by
  refine List.countP_eq_zero.2 fun i hi => ?_
  simp [slotRead_clearBelow, List.mem_range.1 hi]

/-- A write beyond the slots counted does not change the count. -/
theorem occupiedCount_slotWrite_of_le (m : Memory Bucket) {n i : Nat} (r : Option Bucket) (h : n ≤ i) :
    occupiedCount (slotWrite m i r) n = occupiedCount m n := by
  refine List.countP_congr fun j hj => ?_
  have hne : i ≠ j := by have := List.mem_range.1 hj; omega
  rw [slotRead_slotWrite, if_neg hne]

/-- A write exchanges what its slot counted for what it counts now. -/
theorem occupiedCount_slotWrite (m : Memory Bucket) {n i : Nat} (r : Option Bucket) (hi : i < n) :
    occupiedCount (slotWrite m i r) n + (if (slotRead m i).isSome then 1 else 0) =
      occupiedCount m n + if r.isSome then 1 else 0 := by
  induction n with
  | zero => omega
  | succ n ih =>
    rw [occupiedCount_succ, occupiedCount_succ, slotRead_slotWrite]
    rcases Nat.lt_succ_iff_lt_or_eq.1 hi with hlt | rfl
    · have := ih hlt
      rw [if_neg (by omega : ¬ i = n)]
      omega
    · rw [occupiedCount_slotWrite_of_le m r le_rfl, if_pos rfl]
      omega

theorem occupiedCount_fill {m : Memory Bucket} {n i : Nat} (b : Bucket) (hi : i < n) (hempty : slotRead m i = none) :
    occupiedCount (slotWrite m i (some b)) n = occupiedCount m n + 1 := by
  simpa [hempty] using occupiedCount_slotWrite m (some b) hi

theorem occupiedCount_empty {m : Memory Bucket} {n i : Nat} {b : Bucket} (hi : i < n) (hocc : slotRead m i = some b) :
    occupiedCount (slotWrite m i none) n + 1 = occupiedCount m n := by
  simpa [hocc] using occupiedCount_slotWrite m none hi

end Sys2Proof.Machine
end

-- ==== A slot filled and a slot emptied (`spec/42_hashtable.md` R177, R191) ====
section
namespace Sys2Proof.Machine

/-- The context after PUT has filled slot `p`. -/
def Context.fillAt (c : Context) (p : Nat) (b : Bucket) : Context :=
  { c with slots := slotWrite c.slots p (some b), len := c.len + 1#32 }

/-- The context after DEL has emptied slot `p`. -/
def Context.emptyAt (c : Context) (p : Nat) : Context :=
  { c with slots := slotWrite c.slots p none, len := c.len - 1#32 }

/-- A live context of the invariant in a machine with a legal SLOT_DEPTH (`spec/00_scope.md` R7). -/
structure Context.LiveOk (depth : Nat) (c : Context) : Prop where
  depth_lt : depth < Config.slotDepthLimit
  ok : ContextOk depth c
  valid : c.valid = true

namespace Context.LiveOk

variable {depth : Nat} {c : Context}

theorem size_pos (h : c.LiveOk depth) : 0 < c.size.toNat := (h.ok.2 h.valid).1

theorem size_le (h : c.LiveOk depth) : c.size.toNat ≤ depth := (h.ok.2 h.valid).2.1

theorem len_eq (h : c.LiveOk depth) : c.len.toNat = occupiedCount c.slots c.size.toNat := (h.ok.2 h.valid).2.2

/-- LEN = SIZE exactly when no slot is empty (`spec/42_hashtable.md` R179). -/
theorem len_eq_size_iff (h : c.LiveOk depth) :
    c.len = c.size ↔ ∀ i < c.size.toNat, (slotRead c.slots i).isSome = true := by
  rw [BitVec.toNat_inj.symm, h.len_eq, occupiedCount_eq_iff]

/-- LEN grows by one, and stays below 2^32 because a slot was empty. -/
theorem fillAt_len (h : c.LiveOk depth) {p : Nat} (hp : p < c.size.toNat) (hempty : slotRead c.slots p = none)
    (b : Bucket) : (c.fillAt p b).len.toNat = c.len.toNat + 1 := by
  have hlt := occupiedCount_lt hp hempty
  have hlen := h.len_eq
  have hsize := c.size.isLt
  simp only [fillAt, BitVec.toNat_add, BitVec.toNat_ofNat]
  omega

/-- LEN shrinks by one, and was not 0 because a slot was occupied. -/
theorem emptyAt_len (h : c.LiveOk depth) {p : Nat} {b : Bucket} (hp : p < c.size.toNat)
    (hocc : slotRead c.slots p = some b) : (c.emptyAt p).len.toNat + 1 = c.len.toNat := by
  have hcount := occupiedCount_empty hp hocc
  have hlen := h.len_eq
  have hlt := c.len.isLt
  simp only [emptyAt, BitVec.toNat_sub, BitVec.toNat_ofNat]
  omega

theorem fillAt (h : c.LiveOk depth) {p : Nat} (hp : p < c.size.toNat) (hempty : slotRead c.slots p = none)
    (b : Bucket) : (c.fillAt p b).LiveOk depth := by
  refine ⟨h.depth_lt, ⟨slotWrite_wf h.ok.1 p (some b), fun _ => ⟨h.size_pos, h.size_le, ?_⟩⟩, h.valid⟩
  calc (c.fillAt p b).len.toNat = c.len.toNat + 1 := h.fillAt_len hp hempty b
    _ = occupiedCount c.slots c.size.toNat + 1 := by rw [h.len_eq]
    _ = _ := (occupiedCount_fill b hp hempty).symm

theorem emptyAt (h : c.LiveOk depth) {p : Nat} {b : Bucket} (hp : p < c.size.toNat)
    (hocc : slotRead c.slots p = some b) : (c.emptyAt p).LiveOk depth := by
  refine ⟨h.depth_lt, ⟨slotWrite_wf h.ok.1 p none, fun _ => ⟨h.size_pos, h.size_le, ?_⟩⟩, h.valid⟩
  have hlen := h.emptyAt_len hp hocc
  have hcount := occupiedCount_empty hp hocc
  rw [h.len_eq, ← hcount] at hlen
  exact Nat.succ.inj hlen

end Context.LiveOk

end Sys2Proof.Machine
end

-- ==== The probe path (`spec/42_hashtable.md` R175, R176) ====
section
namespace Sys2Proof.Machine

/-! ## The positions of the path -/

theorem pathPos_inj {idHash size : Word} {d e : Nat} (hd : d < size.toNat) (he : e < size.toNat)
    (h : pathPos idHash size d = pathPos idHash size e) : d = e :=
  (Nat.ModEq.add_left_cancel' _ h).eq_of_lt_of_lt hd he

/-- The path comes past every slot of the table. -/
theorem pathPos_surj (idHash : Word) {size : Word} {i : Nat} (hi : i < size.toNat) :
    ∃ e < size.toNat, pathPos idHash size e = i := by
  have hstart : idHash.toNat % size.toNat < size.toNat := Nat.mod_lt _ (by omega)
  refine ⟨(i + size.toNat - idHash.toNat % size.toNat) % size.toNat, Nat.mod_lt _ (by omega), ?_⟩
  rw [pathPos, Nat.add_mod_mod, show idHash.toNat % size.toNat + (i + size.toNat - idHash.toNat % size.toNat) =
    i + size.toNat by omega, Nat.add_mod_right, Nat.mod_eq_of_lt hi]

/-- The path meets no empty slot exactly when the table has none. -/
theorem insertPasses_size_iff (s : State) (tid : TableId) (key : Key) :
    InsertPasses s tid key (s.table tid).size.toNat ↔
      ∀ i < (s.table tid).size.toNat, (slotRead (s.table tid).slots i).isSome = true := by
  constructor
  · intro hpass i hi
    obtain ⟨e, he, rfl⟩ := pathPos_surj (keyHash s.ct .id key) hi
    exact Option.isSome_iff_exists.2 (hpass e he)
  · exact fun hocc e he => Option.isSome_iff_exists.1 (hocc _ (pathPos_lt _ _ _ (by omega)))

/-! ## Where a probe of a key ends -/

/-- PUT's probe ends at the first empty slot, `d` positions from START. -/
structure PutFits (s : State) (tid : TableId) (key : Key) (d : Nat) : Prop where
  lt : d < (s.table tid).size.toNat
  passes : InsertPasses s tid key d
  empty : pathRecord s tid key d = none

/-- The probe of GET and DEL ends at the first bucket with the key's pair. -/
structure LookupFinds (s : State) (tid : TableId) (key : Key) (d : Nat) (b : Bucket) : Prop where
  lt : d < (s.table tid).size.toNat
  passes : LookupPasses s tid key d
  found : pathRecord s tid key d = some b
  carries : CarriesPair s key b

/-- The probe of GET and DEL ends without such a bucket, at an empty slot or back at START. -/
structure LookupMisses (s : State) (tid : TableId) (key : Key) (d : Nat) : Prop where
  le : d ≤ (s.table tid).size.toNat
  passes : LookupPasses s tid key d
  empty : d < (s.table tid).size.toNat → pathRecord s tid key d = none

/-- A probe of `key` passes `d` positions that do not stop it and ends there with `found`: the record that stops it, or
none back at START. -/
structure ProbeEnds (stops : Option Bucket → Bool) (s : State) (tid : TableId) (key : Key) (d : Nat)
    (found : Option (Option Bucket)) : Prop where
  passes : ∀ e < d, stops (pathRecord s tid key e) = false
  stops_or_wraps :
    (d < (s.table tid).size.toNat ∧ stops (pathRecord s tid key d) = true ∧ found = some (pathRecord s tid key d)) ∨
      (d = (s.table tid).size.toNat ∧ found = none)

variable {s t : State} {tid : TableId} {key : Key} {d : Nat}

theorem exists_probeEnds (stops : Option Bucket → Bool) (s : State) (tid : TableId) (key : Key)
    (hsize : 0 < (s.table tid).size.toNat) : ∃ d found, ProbeEnds stops s tid key d found := by
  obtain ⟨d, hd, hpass, hstop, -⟩ | ⟨hpass, -⟩ :=
    probeLoop_cases stops (s.table tid).slots (keyHash s.ct .id key) (s.table tid).size hsize
  · exact ⟨d, _, hpass, .inl ⟨hd, hstop, rfl⟩⟩
  · exact ⟨_, none, hpass, .inr ⟨rfl, rfl⟩⟩

theorem ProbeEnds.probeLoop_eq {stops : Option Bucket → Bool} {found : Option (Option Bucket)}
    (h : ProbeEnds stops s tid key d found) (hsize : 0 < (s.table tid).size.toNat) :
    probeLoop stops (s.table tid).slots (s.table tid).size (s.table tid).size.toNat
        (cursorStart (keyHash s.ct .id key) (s.table tid).size) =
      (cursorAt (keyHash s.ct .id key) (s.table tid).size d, found) := by
  have hpass := h.passes
  rw [cursorStart_eq]
  obtain ⟨hd, hstop, rfl⟩ | ⟨rfl, rfl⟩ := h.stops_or_wraps
  · simpa [pathRecord] using probeLoop_stops stops (s.table tid).slots (keyHash s.ct .id key) (s.table tid).size hsize
      (s.table tid).size.toNat d 0 hd (by simpa [pathRecord] using hpass) (by simpa [pathRecord] using hstop)
  · simpa using probeLoop_wraps stops (s.table tid).slots (keyHash s.ct .id key) (s.table tid).size hsize
      (s.table tid).size.toNat 0 (by simpa [pathRecord] using hpass)

/-! ## PUT's probe -/

theorem stopsPut_eq_false_iff (r : Option Bucket) : stopsPut r = false ↔ ∃ b, r = some b := by
  cases r <;> simp [stopsPut]

theorem PutFits.probeEnds (h : PutFits s tid key d) : ProbeEnds stopsPut s tid key d (some none) :=
  ⟨fun e he => (stopsPut_eq_false_iff _).2 (h.passes e he),
    .inl ⟨h.lt, (stopsPut_iff _).2 h.empty, congrArg some h.empty.symm⟩⟩

theorem probeEnds_of_insertPasses (h : InsertPasses s tid key (s.table tid).size.toNat) :
    ProbeEnds stopsPut s tid key (s.table tid).size.toNat none :=
  ⟨fun e he => (stopsPut_eq_false_iff _).2 (h e he), .inr ⟨rfl, rfl⟩⟩

/-- PUT's probe finds an empty slot or comes back to START. -/
theorem putFits_or_insertPasses (s : State) (tid : TableId) (key : Key) (hsize : 0 < (s.table tid).size.toNat) :
    (∃ d, PutFits s tid key d) ∨ InsertPasses s tid key (s.table tid).size.toNat := by
  obtain ⟨d, found, hpass, ⟨hd, hstop, -⟩ | ⟨rfl, -⟩⟩ := exists_probeEnds stopsPut s tid key hsize
  · exact .inl ⟨d, hd, fun e he => (stopsPut_eq_false_iff _).1 (hpass e he), (stopsPut_iff _).1 hstop⟩
  · exact .inr fun e he => (stopsPut_eq_false_iff _).1 (hpass e he)

/-! ## The probe of GET and DEL -/

/-- What GET's and DEL's probe of `key` stops at (R185, R186). -/
def lookupStops (s : State) (key : Key) : Option Bucket → Bool :=
  stopsLookup (keyHash s.ct .a key) (keyHash s.ct .b key)

theorem lookupStops_iff (s : State) (key : Key) (r : Option Bucket) :
    lookupStops s key r = true ↔ r = none ∨ ∃ b, r = some b ∧ CarriesPair s key b :=
  stopsLookup_iff _ _ r

theorem lookupStops_eq_false_iff (s : State) (key : Key) (r : Option Bucket) :
    lookupStops s key r = false ↔ ∃ b, r = some b ∧ ¬ CarriesPair s key b := by
  rw [← Bool.not_eq_true, lookupStops_iff]
  cases r <;> simp

theorem LookupFinds.probeEnds {b : Bucket} (h : LookupFinds s tid key d b) :
    ProbeEnds (lookupStops s key) s tid key d (some (some b)) :=
  ⟨fun e he => (lookupStops_eq_false_iff s key _).2 (h.passes e he),
    .inl ⟨h.lt, (lookupStops_iff s key _).2 (.inr ⟨b, h.found, h.carries⟩), congrArg some h.found.symm⟩⟩

theorem LookupMisses.probeEnds (h : LookupMisses s tid key d) :
    ∃ found, (found = some none ∨ found = none) ∧ ProbeEnds (lookupStops s key) s tid key d found := by
  have hpass : ∀ e < d, lookupStops s key (pathRecord s tid key e) = false := fun e he =>
    (lookupStops_eq_false_iff s key _).2 (h.passes e he)
  obtain hd | rfl := h.le.lt_or_eq
  · exact ⟨some none, .inl rfl, hpass,
      .inl ⟨hd, (lookupStops_iff s key _).2 (.inl (h.empty hd)), congrArg some (h.empty hd).symm⟩⟩
  · exact ⟨none, .inr rfl, hpass, .inr ⟨rfl, rfl⟩⟩

/-- The probe of GET and DEL finds the first bucket with the key's pair or misses it. -/
theorem lookupFinds_or_lookupMisses (s : State) (tid : TableId) (key : Key)
    (hsize : 0 < (s.table tid).size.toNat) :
    (∃ d b, LookupFinds s tid key d b) ∨ ∃ d, LookupMisses s tid key d := by
  obtain ⟨d, found, hpass, hend⟩ := exists_probeEnds (lookupStops s key) s tid key hsize
  have hpasses : LookupPasses s tid key d := fun e he => (lookupStops_eq_false_iff s key _).1 (hpass e he)
  obtain ⟨hd, hstop, -⟩ | ⟨rfl, -⟩ := hend
  · obtain hempty | ⟨b, hb, hcarries⟩ := (lookupStops_iff s key _).1 hstop
    · exact .inr ⟨d, hd.le, hpasses, fun _ => hempty⟩
    · exact .inl ⟨d, b, hd, hpasses, hb, hcarries⟩
  · exact .inr ⟨_, le_rfl, hpasses, fun h => absurd h (lt_irrefl _)⟩

/-! ## A probe after a write to the path -/

/-- From `s` to `t` the path of `key` in table `tid` shows the same but for the record `r`, now at its `d`-th
position. -/
structure WritesPath (s t : State) (tid : TableId) (key : Key) (d : Nat) (r : Option Bucket) : Prop where
  ct : t.ct = s.ct
  size : (t.table tid).size = (s.table tid).size
  record : ∀ e < (s.table tid).size.toNat, pathRecord t tid key e = if d = e then r else pathRecord s tid key e

theorem writesPath_of_slotWrite {r : Option Bucket} (hd : d < (s.table tid).size.toNat) (hct : t.ct = s.ct)
    (hsize : (t.table tid).size = (s.table tid).size)
    (hslots : (t.table tid).slots =
      slotWrite (s.table tid).slots (pathPos (keyHash s.ct .id key) (s.table tid).size d) r) :
    WritesPath s t tid key d r := by
  refine ⟨hct, hsize, fun e he => ?_⟩
  have hpos : pathPos (keyHash s.ct .id key) (s.table tid).size d =
      pathPos (keyHash s.ct .id key) (s.table tid).size e ↔ d = e := ⟨pathPos_inj hd he, congrArg _⟩
  simp only [pathRecord, hct, hsize, hslots, slotRead_slotWrite, hpos]

section
variable {r : Option Bucket} {e : Nat} {b : Bucket} (h : WritesPath s t tid key d r)
include h

theorem WritesPath.carriesPair_iff : CarriesPair t key b ↔ CarriesPair s key b := by
  rw [CarriesPair, CarriesPair, h.ct]

theorem WritesPath.lookupPasses (hed : e ≤ d) (he : e ≤ (s.table tid).size.toNat) (hpass : LookupPasses s tid key e) :
    LookupPasses t tid key e := by
  intro e' he'
  rw [h.record e' (by omega), if_neg (by omega)]
  obtain ⟨b, hb, hne⟩ := hpass e' he'
  exact ⟨b, hb, mt h.carriesPair_iff.1 hne⟩

/-- The written bucket is found if no slot before it carries the pair. -/
theorem WritesPath.finds_written (hd : d < (s.table tid).size.toNat) (hpass : LookupPasses s tid key d)
    (hr : r = some b) (hcarries : CarriesPair s key b) : LookupFinds t tid key d b := by
  refine ⟨by rwa [h.size], h.lookupPasses le_rfl hd.le hpass, ?_, h.carriesPair_iff.2 hcarries⟩
  rw [h.record d hd, if_pos rfl, hr]

/-- A bucket before the written slot is found as before the write. -/
theorem WritesPath.finds_before (he : e < d) (hfinds : LookupFinds s tid key e b) : LookupFinds t tid key e b := by
  refine ⟨by rw [h.size]; exact hfinds.lt, h.lookupPasses he.le hfinds.lt.le hfinds.passes, ?_,
    h.carriesPair_iff.2 hfinds.carries⟩
  rw [h.record e hfinds.lt, if_neg (by omega)]
  exact hfinds.found

/-- An emptied slot ends the probe if no slot before it carries the pair (R191). -/
theorem WritesPath.misses_emptied (hd : d < (s.table tid).size.toNat) (hpass : LookupPasses s tid key d)
    (hr : r = none) : LookupMisses t tid key d := by
  refine ⟨by rw [h.size]; exact hd.le, h.lookupPasses le_rfl hd.le hpass, fun _ => ?_⟩
  rw [h.record d hd, if_pos rfl, hr]

end

/-- A miss is a miss again while CT and the table are the same. -/
theorem LookupMisses.congr (h : LookupMisses s tid key d) (hct : t.ct = s.ct) (htable : t.table tid = s.table tid) :
    LookupMisses t tid key d := by
  have hrecord : ∀ e, pathRecord t tid key e = pathRecord s tid key e := fun e => by
    rw [pathRecord, pathRecord, hct, htable]
  refine ⟨by rw [htable]; exact h.le, fun e he => ?_, fun hd => ?_⟩
  · simpa only [hrecord, CarriesPair, hct] using h.passes e he
  · rw [hrecord]
    exact h.empty (by rwa [← htable])

/-! ## The probe as the commands run it -/

/-- One pass over the key runs the three lanes side by side (`spec/41_hash.md` R155). -/
theorem lanesRun_eq (ct : Memory Word) (key : Key) :
    lanesRun ct key = ⟨laneRun ct .id key, laneRun ct .a key, laneRun ct .b key⟩ := by
  have hfold : ∀ (l : Lanes), key.foldl (lanesStep ct) l =
      ⟨key.foldl (laneStep ct .id) l.id, key.foldl (laneStep ct .a) l.a, key.foldl (laneStep ct .b) l.b⟩ := by
    induction key with
    | nil => exact fun _ => rfl
    | cons ch key ih => exact fun l => ih (lanesStep ct l ch)
  exact hfold lanesInit

/-- After hashing the key and starting the cursor, the probe runs to its end and the command's exit takes over. -/
theorem ProbeEnds.runProbe_eq {stops : Option Bucket → Bool} {found : Option (Option Bucket)}
    (h : ProbeEnds stops s tid key d found) (hsize : 0 < (s.table tid).size.toNat)
    (exit : Option (Option Bucket) → State → Result) :
    runProbe tid stops exit ((s.hashKey key).startProbe tid) = exit found (s.probed tid key d) := by
  have hstart : ((s.hashKey key).startProbe tid).cur = cursorStart (keyHash s.ct .id key) (s.table tid).size := by
    rw [State.startProbe_cur, State.hashKey_lanes, lanesRun_eq]
    rfl
  have hend : ((s.hashKey key).startProbe tid).loadCursor (cursorAt (keyHash s.ct .id key) (s.table tid).size d) =
      s.probed tid key d := by
    rw [State.hashKey, lanesRun_eq]
    rfl
  simp only [runProbe, State.startProbe_table, State.hashKey_table, hstart, h.probeLoop_eq hsize, hend]

end Sys2Proof.Machine
end

-- ==== PUT, GET and DEL by where their probe ends (`spec/42_hashtable.md` R177, R185, R191) ====
section
namespace Sys2Proof.Machine

variable {s t u : State} {tid : TableId} {key : Key} {d : Nat}

/-- The checks of PUT, GET and DEL on table `tid` pass (`spec/60_exceptions.md` R255), and it has a slot to probe. -/
structure Serves (s : State) (tid : TableId) : Prop where
  noFault : s.fault = false
  generated : s.genDone = true
  live : s.live tid = true
  size_pos : 0 < (s.table tid).size.toNat

theorem Serves.lt_ntab (h : Serves s tid) : tid.toNat < s.ntab := ((State.live_iff s tid).1 h.live).1

theorem Serves.exec_eq (h : Serves s tid) {i : Instr}
    (hi : headerOf i = .put tid ∨ headerOf i = .get tid ∨ headerOf i = .del tid) :
    exec i s = .next (emit (ownPart i (s.loadHeader (headerOf i)))) := by
  have hcheck := (needGenerated_or_needLive_eq_none tid s).2 ⟨h.generated, h.live⟩
  rw [exec_eq_runCommand]
  refine runCommand_body _ _ h.noFault ?_
  obtain hi | hi | hi := hi <;> rw [hi] <;> exact hcheck

/-- The checks read GEN_DONE, VALID and NTAB, which a write to the context's slots leaves alone. -/
theorem Serves.congr (h : Serves s tid) (hf : t.fault = s.fault) (hg : t.genDone = s.genDone) (hn : t.ntab = s.ntab)
    (hv : (t.table tid).valid = (s.table tid).valid) (hsize : (t.table tid).size = (s.table tid).size) :
    Serves t tid := by
  have hlive := (State.live_iff s tid).1 h.live
  exact ⟨hf.trans h.noFault, hg.trans h.generated, (State.live_iff t tid).2 (by rwa [hn, hv]), hsize ▸ h.size_pos⟩

/-! ## PUT -/

/-- The bucket that PUT writes. -/
def putBucket (s : State) (value : Word) (key : Key) : Bucket := ⟨keyHash s.ct .a key, keyHash s.ct .b key, value⟩

theorem putBucket_carriesPair (s : State) (value : Word) (key : Key) : CarriesPair s key (putBucket s value key) :=
  ⟨rfl, rfl⟩

/-- The state after a PUT that has filled the `d`-th slot of the path. -/
@[irreducible] def State.afterPut (s : State) (tid : TableId) (value : Word) (key : Key) (d : Nat) : State :=
  ((((s.loadHeader (.put tid)).loadArg value).probed tid key d).setTable tid
      ((s.table tid).fillAt (pathPos (keyHash s.ct .id key) (s.table tid).size d) (putBucket s value key))).answer
    (okResponse (cursorAt (keyHash s.ct .id key) (s.table tid).size d).pos)

@[simp] theorem State.afterPut_fault (s : State) (tid : TableId) (value : Word) (key : Key) (d : Nat) :
    (s.afterPut tid value key d).fault = s.fault := by
  simp [State.afterPut]

@[simp] theorem State.afterPut_genDone (s : State) (tid : TableId) (value : Word) (key : Key) (d : Nat) :
    (s.afterPut tid value key d).genDone = s.genDone := by
  simp [State.afterPut]

@[simp] theorem State.afterPut_ct (s : State) (tid : TableId) (value : Word) (key : Key) (d : Nat) :
    (s.afterPut tid value key d).ct = s.ct := by
  simp [State.afterPut]

@[simp] theorem State.afterPut_slotDepth (s : State) (tid : TableId) (value : Word) (key : Key) (d : Nat) :
    (s.afterPut tid value key d).slotDepth = s.slotDepth := by
  simp [State.afterPut]

@[simp] theorem State.afterPut_ntab (s : State) (tid : TableId) (value : Word) (key : Key) (d : Nat) :
    (s.afterPut tid value key d).ntab = s.ntab := by
  simp [State.afterPut]

theorem State.afterPut_rsp (s : State) (tid : TableId) (value : Word) (key : Key) (d : Nat) :
    (s.afterPut tid value key d).rsp =
      s.rsp ++ (okResponse (cursorAt (keyHash s.ct .id key) (s.table tid).size d).pos).bytes := by
  simp [State.afterPut]

theorem afterPut_table (hlt : tid.toNat < s.ntab) (value : Word) (key : Key) (d : Nat) :
    (s.afterPut tid value key d).table tid =
      (s.table tid).fillAt (pathPos (keyHash s.ct .id key) (s.table tid).size d) (putBucket s value key) := by
  rw [State.afterPut, State.answer_table, State.setTable_table_same _ _ _ (by simpa using hlt)]

theorem statusBetween_afterPut (s : State) (tid : TableId) (value : Word) (key : Key) (d : Nat) :
    statusBetween s (s.afterPut tid value key d) = some 0#32 :=
  statusBetween_of_rsp (State.afterPut_rsp s tid value key d)

/-- The state after a PUT that has found every slot occupied. -/
@[irreducible] def State.afterFullPut (s : State) (tid : TableId) (value : Word) (key : Key) : State :=
  (((s.loadHeader (.put tid)).loadArg value).probed tid key (s.table tid).size.toNat).answer
    ⟨.capacityExhausted, 0#32, []⟩

@[simp] theorem State.afterFullPut_slotDepth (s : State) (tid : TableId) (value : Word) (key : Key) :
    (s.afterFullPut tid value key).slotDepth = s.slotDepth := by
  simp [State.afterFullPut]

@[simp] theorem State.afterFullPut_tables (s : State) (tid : TableId) (value : Word) (key : Key) :
    (s.afterFullPut tid value key).tables = s.tables := by
  simp [State.afterFullPut]

theorem statusBetween_afterFullPut (s : State) (tid : TableId) (value : Word) (key : Key) :
    statusBetween s (s.afterFullPut tid value key) = some 2#32 :=
  statusBetween_of_rsp (r := ⟨.capacityExhausted, 0#32, []⟩) (by simp [State.afterFullPut])

theorem exec_put_of_probeEnds (hs : Serves s tid) {found : Option (Option Bucket)}
    (h : ProbeEnds stopsPut s tid key d found) (value : Word) :
    exec (.put tid value key) s =
      .next (emit (putExit tid found (((s.loadHeader (.put tid)).loadArg value).probed tid key d))) := by
  have hends : ProbeEnds stopsPut ((s.loadHeader (.put tid)).loadArg value) tid key d found := ⟨h.1, h.2⟩
  rw [hs.exec_eq (.inl rfl)]
  exact congrArg (fun r => Host.Outcome.next (emit r)) (hends.runProbe_eq hs.size_pos (putExit tid))

theorem putExit_some (tid : TableId) (r : Option Bucket) (s : State) :
    putExit tid (some r) s =
      (s.setTable tid ((s.table tid).fillAt s.cur.pos.toNat ⟨s.lanes.a.s1, s.lanes.b.s1, s.arg⟩),
        okResponse s.cur.pos) := rfl

theorem exec_put_of_fits (hs : Serves s tid) (h : PutFits s tid key d) (value : Word) :
    exec (.put tid value key) s = .next (s.afterPut tid value key d) := by
  rw [exec_put_of_probeEnds hs h.probeEnds, putExit_some, emit_of_no_fault _ (by simp [hs.noFault]), State.afterPut,
    ← cursorAt_pos (keyHash s.ct .id key) (s.table tid).size d hs.size_pos]
  simp only [State.probed_table, State.probed_cur, State.probed_lanes, State.probed_arg, State.loadArg_table,
    State.loadArg_ct, State.loadArg_arg, State.loadHeader_table, State.loadHeader_ct, putBucket, keyHash]

theorem exec_put_of_full (hs : Serves s tid) (h : InsertPasses s tid key (s.table tid).size.toNat) (value : Word) :
    exec (.put tid value key) s = .next (s.afterFullPut tid value key) := by
  rw [exec_put_of_probeEnds hs (probeEnds_of_insertPasses h), emit_of_no_fault _ (by simp [putExit, hs.noFault]),
    State.afterFullPut]
  rfl

theorem serves_afterPut (hs : Serves s tid) (value : Word) (key : Key) (d : Nat) :
    Serves (s.afterPut tid value key d) tid := by
  have htable := afterPut_table hs.lt_ntab value key d
  exact hs.congr (by simp) (by simp) (by simp) (by rw [htable]; rfl) (by rw [htable]; rfl)

/-- PUT writes its bucket to the slot where its probe ended. -/
theorem writesPath_afterPut (hs : Serves s tid) (h : PutFits s tid key d) (value : Word) :
    WritesPath s (s.afterPut tid value key d) tid key d (some (putBucket s value key)) := by
  have htable := afterPut_table hs.lt_ntab value key d
  exact writesPath_of_slotWrite h.lt (by simp) (by rw [htable]; rfl) (by rw [htable]; rfl)

/-! ## GET -/

/-- The state after a GET whose probe ended `d` positions from START. -/
@[irreducible] def State.afterGet (s : State) (tid : TableId) (key : Key) (d : Nat) (r : Response) : State :=
  ((s.loadHeader (.get tid)).probed tid key d).answer r

@[simp] theorem State.afterGet_rsp (s : State) (tid : TableId) (key : Key) (d : Nat) (r : Response) :
    (s.afterGet tid key d r).rsp = s.rsp ++ r.bytes := by
  simp [State.afterGet]

theorem exec_get_of_probeEnds (hs : Serves s tid) {found : Option (Option Bucket)}
    (h : ProbeEnds (lookupStops s key) s tid key d found) :
    exec (.get tid key) s = .next (s.afterGet tid key d (getExit found s).2) := by
  have hends : ProbeEnds (lookupStops s key) (s.loadHeader (.get tid)) tid key d found := ⟨h.1, h.2⟩
  have hbody : getBody tid key (s.loadHeader (.get tid)) =
      getExit found ((s.loadHeader (.get tid)).probed tid key d) := by
    rw [← hends.runProbe_eq hs.size_pos getExit, lookupStops, keyHash, keyHash]
    simp only [getBody, State.startProbe_lanes, State.hashKey_lanes, lanesRun_eq, State.loadHeader_ct]
  have hexit : getExit found ((s.loadHeader (.get tid)).probed tid key d) =
      ((s.loadHeader (.get tid)).probed tid key d, (getExit found s).2) := by
    obtain _ | _ | _ := found <;> rfl
  calc exec (.get tid key) s
      = .next (emit (getBody tid key (s.loadHeader (.get tid)))) := hs.exec_eq (.inr (.inl rfl))
    _ = .next (s.afterGet tid key d (getExit found s).2) := by
      rw [hbody, hexit, emit_of_no_fault _ (by simp [hs.noFault]), State.afterGet]

/-- A GET that finds the key answers OK and the value found. -/
theorem exec_get_of_finds (hs : Serves s tid) {b : Bucket} (h : LookupFinds s tid key d b) :
    exec (.get tid key) s = .next (s.afterGet tid key d (okResponse b.value)) :=
  exec_get_of_probeEnds hs h.probeEnds

/-- A GET that misses the key answers NOT_FOUND. -/
theorem exec_get_of_misses (hs : Serves s tid) (h : LookupMisses s tid key d) :
    exec (.get tid key) s = .next (s.afterGet tid key d ⟨.notFound, 0#32, []⟩) := by
  obtain ⟨found, hfound, hends⟩ := h.probeEnds
  rw [exec_get_of_probeEnds hs hends]
  obtain rfl | rfl := hfound <;> rfl

theorem get_answers_of_finds (hs : Serves s tid) {b : Bucket} (h : LookupFinds s tid key d b)
    (hu : exec (.get tid key) s = .next u) : statusBetween s u = some 0#32 ∧ resultBetween s u = some b.value := by
  rw [exec_get_of_finds hs h] at hu
  obtain rfl := Host.Outcome.next.inj hu
  have hrsp := State.afterGet_rsp s tid key d (okResponse b.value)
  exact ⟨statusBetween_of_rsp hrsp, resultBetween_of_rsp hrsp⟩

theorem get_not_found_of_misses (hs : Serves s tid) (h : LookupMisses s tid key d) :
    ∃ u, exec (.get tid key) s = .next u ∧ statusBetween s u = some 1#32 :=
  ⟨_, exec_get_of_misses hs h, statusBetween_of_rsp (State.afterGet_rsp s tid key d _)⟩

/-! ## DEL -/

/-- The state after a DEL that has emptied the `d`-th slot of the path. -/
@[irreducible] def State.afterDel (s : State) (tid : TableId) (key : Key) (d : Nat) (b : Bucket) : State :=
  (((s.loadHeader (.del tid)).probed tid key d).setTable tid
      ((s.table tid).emptyAt (pathPos (keyHash s.ct .id key) (s.table tid).size d))).answer (okResponse b.value)

@[simp] theorem State.afterDel_fault (s : State) (tid : TableId) (key : Key) (d : Nat) (b : Bucket) :
    (s.afterDel tid key d b).fault = s.fault := by
  simp [State.afterDel]

@[simp] theorem State.afterDel_genDone (s : State) (tid : TableId) (key : Key) (d : Nat) (b : Bucket) :
    (s.afterDel tid key d b).genDone = s.genDone := by
  simp [State.afterDel]

@[simp] theorem State.afterDel_ct (s : State) (tid : TableId) (key : Key) (d : Nat) (b : Bucket) :
    (s.afterDel tid key d b).ct = s.ct := by
  simp [State.afterDel]

@[simp] theorem State.afterDel_slotDepth (s : State) (tid : TableId) (key : Key) (d : Nat) (b : Bucket) :
    (s.afterDel tid key d b).slotDepth = s.slotDepth := by
  simp [State.afterDel]

@[simp] theorem State.afterDel_ntab (s : State) (tid : TableId) (key : Key) (d : Nat) (b : Bucket) :
    (s.afterDel tid key d b).ntab = s.ntab := by
  simp [State.afterDel]

theorem afterDel_table (hlt : tid.toNat < s.ntab) (key : Key) (d : Nat) (b : Bucket) :
    (s.afterDel tid key d b).table tid =
      (s.table tid).emptyAt (pathPos (keyHash s.ct .id key) (s.table tid).size d) := by
  rw [State.afterDel, State.answer_table, State.setTable_table_same _ _ _ (by simpa using hlt)]

theorem statusBetween_afterDel (s : State) (tid : TableId) (key : Key) (d : Nat) (b : Bucket) :
    statusBetween s (s.afterDel tid key d b) = some 0#32 :=
  statusBetween_of_rsp (r := okResponse b.value) (by simp [State.afterDel])

/-- The state after a DEL that has missed the key `d` positions from START. -/
@[irreducible] def State.afterMissedDel (s : State) (tid : TableId) (key : Key) (d : Nat) : State :=
  ((s.loadHeader (.del tid)).probed tid key d).answer ⟨.notFound, 0#32, []⟩

@[simp] theorem State.afterMissedDel_fault (s : State) (tid : TableId) (key : Key) (d : Nat) :
    (s.afterMissedDel tid key d).fault = s.fault := by
  simp [State.afterMissedDel]

@[simp] theorem State.afterMissedDel_genDone (s : State) (tid : TableId) (key : Key) (d : Nat) :
    (s.afterMissedDel tid key d).genDone = s.genDone := by
  simp [State.afterMissedDel]

@[simp] theorem State.afterMissedDel_ct (s : State) (tid : TableId) (key : Key) (d : Nat) :
    (s.afterMissedDel tid key d).ct = s.ct := by
  simp [State.afterMissedDel]

@[simp] theorem State.afterMissedDel_slotDepth (s : State) (tid : TableId) (key : Key) (d : Nat) :
    (s.afterMissedDel tid key d).slotDepth = s.slotDepth := by
  simp [State.afterMissedDel]

@[simp] theorem State.afterMissedDel_ntab (s : State) (tid : TableId) (key : Key) (d : Nat) :
    (s.afterMissedDel tid key d).ntab = s.ntab := by
  simp [State.afterMissedDel]

@[simp] theorem State.afterMissedDel_tables (s : State) (tid : TableId) (key : Key) (d : Nat) :
    (s.afterMissedDel tid key d).tables = s.tables := by
  simp [State.afterMissedDel]

@[simp] theorem State.afterMissedDel_table (s : State) (tid : TableId) (key : Key) (d : Nat) (k : TableId) :
    (s.afterMissedDel tid key d).table k = s.table k := by
  simp [State.afterMissedDel]

theorem statusBetween_afterMissedDel (s : State) (tid : TableId) (key : Key) (d : Nat) :
    statusBetween s (s.afterMissedDel tid key d) = some 1#32 :=
  statusBetween_of_rsp (r := ⟨.notFound, 0#32, []⟩) (by simp [State.afterMissedDel])

theorem exec_del_of_probeEnds (hs : Serves s tid) {found : Option (Option Bucket)}
    (h : ProbeEnds (lookupStops s key) s tid key d found) :
    exec (.del tid key) s = .next (emit (delExit tid found ((s.loadHeader (.del tid)).probed tid key d))) := by
  have hends : ProbeEnds (lookupStops s key) (s.loadHeader (.del tid)) tid key d found := ⟨h.1, h.2⟩
  have hbody : delBody tid key (s.loadHeader (.del tid)) =
      delExit tid found ((s.loadHeader (.del tid)).probed tid key d) := by
    rw [← hends.runProbe_eq hs.size_pos (delExit tid), lookupStops, keyHash, keyHash]
    simp only [delBody, State.startProbe_lanes, State.hashKey_lanes, lanesRun_eq, State.loadHeader_ct]
  rw [← hbody]
  exact hs.exec_eq (.inr (.inr rfl))

theorem exec_del_of_finds (hs : Serves s tid) {b : Bucket} (h : LookupFinds s tid key d b) :
    exec (.del tid key) s = .next (s.afterDel tid key d b) := by
  rw [exec_del_of_probeEnds hs h.probeEnds, emit_of_no_fault _ (by simp [delExit, hs.noFault]), State.afterDel,
    ← cursorAt_pos (keyHash s.ct .id key) (s.table tid).size d hs.size_pos]
  rfl

theorem exec_del_of_misses (hs : Serves s tid) (h : LookupMisses s tid key d) :
    exec (.del tid key) s = .next (s.afterMissedDel tid key d) := by
  obtain ⟨found, hfound, hends⟩ := h.probeEnds
  have hexit : delExit tid found ((s.loadHeader (.del tid)).probed tid key d) =
      ((s.loadHeader (.del tid)).probed tid key d, ⟨.notFound, 0#32, []⟩) := by
    obtain rfl | rfl := hfound <;> rfl
  rw [exec_del_of_probeEnds hs hends, hexit, emit_of_no_fault _ (by simp [hs.noFault]), State.afterMissedDel]

theorem serves_afterDel (hs : Serves s tid) (key : Key) (d : Nat) (b : Bucket) :
    Serves (s.afterDel tid key d b) tid := by
  have htable := afterDel_table hs.lt_ntab key d b
  exact hs.congr (by simp) (by simp) (by simp) (by rw [htable]; rfl) (by rw [htable]; rfl)

theorem serves_afterMissedDel (hs : Serves s tid) (key : Key) (d : Nat) : Serves (s.afterMissedDel tid key d) tid :=
  hs.congr (by simp) (by simp) (by simp) (by simp) (by simp)

/-- DEL empties the slot where its probe found the pair. -/
theorem writesPath_afterDel (hs : Serves s tid) {b : Bucket} (h : LookupFinds s tid key d b) :
    WritesPath s (s.afterDel tid key d b) tid key d none := by
  have htable := afterDel_table hs.lt_ntab key d b
  exact writesPath_of_slotWrite h.lt (by simp) (by rw [htable]; rfl) (by rw [htable]; rfl)

end Sys2Proof.Machine
end

-- ==== What a command leaves of the tables (`spec/20_memory.md` R71) ====
section
namespace Sys2Proof.Machine

variable {i : Instr} {s t u : State} {tid : TableId} {w : Option TableId}

/-- The table whose context a command may write. -/
def writtenTable : Instr → Option TableId
  | .generate => none
  | .hash _ _ => none
  | .create tid _ => some tid
  | .put tid _ _ => some tid
  | .get _ _ => none
  | .getindex _ _ => none
  | .del tid _ => some tid
  | .len _ => none
  | .release tid _ => some tid

/-- From `s` to `t` no context but the one of table `w` has changed, and no parameter of the machine. -/
structure KeepsOthers (w : Option TableId) (s t : State) : Prop where
  slotDepth : t.slotDepth = s.slotDepth
  ntab : t.ntab = s.ntab
  table : ∀ k, w ≠ some k → t.table k = s.table k

theorem KeepsOthers.of_tables (hd : t.slotDepth = s.slotDepth) (ht : t.tables = s.tables) : KeepsOthers w s t :=
  ⟨hd, by rw [State.ntab, State.ntab, ht], fun k _ => by rw [State.table, State.table, ht]⟩

theorem KeepsOthers.trans (h : KeepsOthers w s t) (h' : KeepsOthers w t u) : KeepsOthers w s u :=
  ⟨h'.slotDepth.trans h.slotDepth, h'.ntab.trans h.ntab, fun k hk => (h'.table k hk).trans (h.table k hk)⟩

theorem KeepsOthers.of_set {c : Context} (hd : t.slotDepth = s.slotDepth) (ht : t.tables = s.tables.set tid.toNat c) :
    KeepsOthers (some tid) s t := by
  have htable : ∀ k, t.table k = (s.setTable tid c).table k := fun k => by
    rw [State.table, State.table, ht, State.setTable_tables]
  refine ⟨hd, by rw [State.ntab, ht, List.length_set, State.ntab], fun k hk => ?_⟩
  exact (htable k).trans (State.setTable_table_other s tid k c fun h => hk (h ▸ rfl))

theorem generateBody_keepsOthers (s : State) : KeepsOthers w s (generateBody s).1 := by
  have hload : ∀ x, KeepsOthers w s ((s.loadGen x).setGenerated) := fun _ => .of_tables (by simp) (by simp)
  rw [generateBody]
  split
  · exact .of_tables rfl rfl
  · exact hload _

theorem clearEntry_keepsOthers (tid : TableId) (s : State) : KeepsOthers (some tid) s (clearEntry tid s) :=
  .of_set (by simp [clearEntry]) (by rw [clearEntry, State.loadPos_tables, State.setTable_tables])

theorem clearAll_keepsOthers (tid : TableId) (s : State) : KeepsOthers (some tid) s (clearAll tid s) :=
  .of_set (by simp [clearAll]) (by rw [clearAll, State.loadPos_tables, State.setTable_tables])

theorem createExit_keepsOthers (tid : TableId) (s : State) : KeepsOthers (some tid) s (createExit tid s).1 :=
  .of_set (by simp [createExit]) (by rw [createExit, State.setTable_tables])

theorem createBody_keepsOthers (tid : TableId) (size : Word) (s : State) :
    KeepsOthers (some tid) s (createBody tid size s).1 := by
  have harg : KeepsOthers (some tid) s (s.loadArg size) := .of_tables (by simp) (by simp)
  rw [createBody]
  split
  · exact harg.trans (.of_tables (by simp) (by simp))
  · exact harg.trans (((clearEntry_keepsOthers tid _).trans (clearAll_keepsOthers tid _)).trans
      (createExit_keepsOthers tid _))

theorem putExit_keepsOthers (tid : TableId) (found : Option (Option Bucket)) (s : State) :
    KeepsOthers (some tid) s (putExit tid found s).1 := by
  cases found with
  | none => exact .of_tables rfl rfl
  | some _ => exact .of_set (by simp [putExit]) (by rw [putExit, State.setTable_tables])

theorem getExit_state (found : Option (Option Bucket)) (s : State) : (getExit found s).1 = s := by
  obtain _ | _ | _ := found <;> rfl

theorem getindexExit_state (tid : TableId) (s : State) : (getindexExit tid s).1 = s := by
  rw [getindexExit]
  split
  · rfl
  · split <;> rfl

theorem delExit_keepsOthers (tid : TableId) (found : Option (Option Bucket)) (s : State) :
    KeepsOthers (some tid) s (delExit tid found s).1 := by
  obtain _ | _ | b := found
  · exact .of_tables rfl rfl
  · exact .of_tables rfl rfl
  · exact .of_set (by simp [delExit]) (by rw [delExit, State.setTable_tables])

theorem lenBody_state (tid : TableId) (s : State) : (lenBody tid s).1 = s := by
  rw [lenBody]
  split <;> rfl

theorem releaseBody_keepsOthers (tid : TableId) (cb : Bool) (s : State) :
    KeepsOthers (some tid) s (releaseBody tid cb s).1 :=
  .of_set (by simp [releaseBody, releaseExit, releaseEntry])
    (by rw [releaseBody, releaseExit, State.nextChoice_tables, State.loadVals_tables, State.setTable_tables]; rfl)

/-- Hashing the key and running the probe write working registers; the rest is the exit's. -/
theorem runProbe_keepsOthers {exit : Option (Option Bucket) → State → Result}
    (hexit : ∀ found s, KeepsOthers w s (exit found s).1) (stops : Option Bucket → Bool) (tid : TableId) (key : Key)
    (s : State) : KeepsOthers w s (runProbe tid stops exit ((s.hashKey key).startProbe tid)).1 :=
  KeepsOthers.trans (.of_tables (by simp) (by simp)) (hexit _ _)

theorem ownPart_keepsOthers (i : Instr) (s : State) : KeepsOthers (writtenTable i) s (ownPart i s).1 := by
  cases i with
  | generate => exact generateBody_keepsOthers s
  | hash ch key => exact .of_tables (by simp [ownPart, hashBody]) (by simp [ownPart, hashBody])
  | create tid size => exact createBody_keepsOthers tid size s
  | put tid value key =>
    have harg : KeepsOthers (some tid) s (s.loadArg value) := .of_tables (by simp) (by simp)
    exact harg.trans (runProbe_keepsOthers (putExit_keepsOthers tid) _ tid key _)
  | get tid key =>
    have hexit : ∀ found s, KeepsOthers none s (getExit found s).1 := fun found s => by
      rw [getExit_state]
      exact .of_tables rfl rfl
    exact runProbe_keepsOthers hexit _ tid key s
  | getindex tid idx =>
    rw [ownPart, getindexBody, getindexExit_state]
    exact .of_tables (by simp) (by simp)
  | del tid key => exact runProbe_keepsOthers (delExit_keepsOthers tid) _ tid key s
  | len tid =>
    rw [ownPart, lenBody_state]
    exact .of_tables rfl rfl
  | release tid cb => exact releaseBody_keepsOthers tid cb s

theorem exec_keepsOthers (ht : exec i s = .next t) : KeepsOthers (writtenTable i) s t := by
  rw [exec_eq_runCommand] at ht
  obtain ⟨-, ⟨c, -, rfl⟩ | ⟨-, rfl⟩⟩ := runCommand_next ht
  · exact .of_tables rfl rfl
  · obtain ⟨hdepth, hntab, htable⟩ := ownPart_keepsOthers i (s.loadHeader (headerOf i))
    exact ⟨hdepth, hntab, htable⟩

/-- A command that ends without the fault has passed its header checks. -/
theorem exec_of_no_fault (ht : exec i s = .next t) (hf : t.fault = false) :
    s.fault = false ∧ headerCheck (headerOf i) s = none ∧ t = emit (ownPart i (s.loadHeader (headerOf i))) := by
  rw [exec_eq_runCommand] at ht
  obtain ⟨hs, ⟨c, -, rfl⟩ | ⟨hc, rfl⟩⟩ := runCommand_next ht
  · cases hf
  · exact ⟨hs, hc, rfl⟩

end Sys2Proof.Machine
end

-- ==== LEN counts insertions (`spec/42_hashtable.md` R172, R195) ====
section
namespace Sys2Proof.Machine

variable {i : Instr} {s t u : State} {tid : TableId} {key : Key} {value size : Word}

/-- A live table that meets R42, in a machine with a legal SLOT_DEPTH. -/
structure TableOk (s : State) (tid : TableId) : Prop where
  lt_ntab : tid.toNat < s.ntab
  context : (s.table tid).LiveOk s.slotDepth

theorem TableOk.live (h : TableOk s tid) : s.live tid = true :=
  (State.live_iff s tid).2 ⟨h.lt_ntab, h.context.valid⟩

theorem TableOk.serves (h : TableOk s tid) (hf : s.fault = false) (hg : s.genDone = true) : Serves s tid :=
  ⟨hf, hg, h.live, h.context.size_pos⟩

/-- Every context within NTAB is as R42 says. -/
theorem ArchInv.contextOk (h : ArchInv s) (hlt : tid.toNat < s.ntab) : ContextOk s.slotDepth (s.table tid) := by
  obtain ⟨-, -, -, -, -, htables, -⟩ := h
  refine htables _ ?_
  rw [State.table, List.getD_eq_getElem _ _ hlt]
  exact List.getElem_mem hlt

theorem ArchInv.slotDepth_lt (h : ArchInv s) : s.slotDepth < Config.slotDepthLimit := by
  obtain ⟨⟨-, -, -, hdepth⟩, -⟩ := h
  exact hdepth

theorem ArchInv.tableOk (h : ArchInv s) (hl : s.live tid = true) : TableOk s tid := by
  obtain ⟨hlt, hvalid⟩ := (State.live_iff s tid).1 hl
  exact ⟨hlt, ArchInv.slotDepth_lt h, ArchInv.contextOk h hlt, hvalid⟩

/-- From `s` to `t` table `tid` stays as R42 says, and LEN grows by `n`. -/
structure LenGrowsBy (tid : TableId) (n : Int) (s t : State) : Prop where
  ok : TableOk t tid
  len : ((t.table tid).len.toNat : Int) = (s.table tid).len.toNat + n

theorem KeepsOthers.lenGrowsBy_zero {w : Option TableId} (h : KeepsOthers w s t) (hw : w ≠ some tid)
    (hok : TableOk s tid) : LenGrowsBy tid 0 s t := by
  have htable := h.table tid hw
  refine ⟨⟨h.ntab ▸ hok.lt_ntab, ?_⟩, by rw [htable, add_zero]⟩
  rw [htable, h.slotDepth]
  exact hok.context

theorem TableOk.same_tables (hok : TableOk s tid) (hd : t.slotDepth = s.slotDepth) (ht : t.tables = s.tables) :
    LenGrowsBy tid 0 s t :=
  (KeepsOthers.of_tables (w := none) hd ht).lenGrowsBy_zero nofun hok

/-! ## What one command adds -/

/-- What one command from `s` to `t` counts in `netInsertions`. -/
def insertionsOf (tid : TableId) (i : Instr) (s t : State) : Int :=
  match i with
  | .put k _ _ => if k = tid ∧ statusBetween s t = some 0#32 then 1 else 0
  | .del k _ => if k = tid ∧ statusBetween s t = some 0#32 then -1 else 0
  | _ => 0

theorem netInsertions_cons (tid : TableId) (is : List Instr) (ht : exec i s = .next t) :
    netInsertions tid (i :: is) s = insertionsOf tid i s t + netInsertions tid is t := by
  rw [netInsertions, ht]
  cases i <;> rfl

/-- A command that may not write the table counts nothing for it. -/
theorem insertionsOf_eq_zero (hw : writtenTable i ≠ some tid) (s t : State) : insertionsOf tid i s t = 0 := by
  cases i with
  | put k _ _ => exact if_neg fun h => hw (congrArg some h.1)
  | del k _ => exact if_neg fun h => hw (congrArg some h.1)
  | _ => rfl

theorem put_lenGrowsBy (hok : TableOk s tid) (hs : Serves s tid) (ht : exec (.put tid value key) s = .next t) :
    LenGrowsBy tid (insertionsOf tid (.put tid value key) s t) s t := by
  obtain ⟨d, h⟩ | h := putFits_or_insertPasses s tid key hs.size_pos
  · rw [exec_put_of_fits hs h] at ht
    obtain rfl := Host.Outcome.next.inj ht
    have hpos := pathPos_lt (keyHash s.ct .id key) (s.table tid).size d hs.size_pos
    have htable := afterPut_table hs.lt_ntab value key d
    have hcount : insertionsOf tid (.put tid value key) s (s.afterPut tid value key d) = 1 :=
      if_pos ⟨rfl, statusBetween_afterPut s tid value key d⟩
    refine ⟨⟨(State.afterPut_ntab s tid value key d).symm ▸ hok.lt_ntab, ?_⟩, ?_⟩
    · rw [htable, State.afterPut_slotDepth]
      exact hok.context.fillAt hpos h.empty _
    · rw [htable, hok.context.fillAt_len hpos h.empty, hcount]
      exact Int.natCast_succ _
  · rw [exec_put_of_full hs h] at ht
    obtain rfl := Host.Outcome.next.inj ht
    have hcount : insertionsOf tid (.put tid value key) s (s.afterFullPut tid value key) = 0 := by
      simp [insertionsOf, statusBetween_afterFullPut]
    rw [hcount]
    exact hok.same_tables (by simp) (by simp)

theorem del_lenGrowsBy (hok : TableOk s tid) (hs : Serves s tid) (ht : exec (.del tid key) s = .next t) :
    LenGrowsBy tid (insertionsOf tid (.del tid key) s t) s t := by
  obtain ⟨d, b, h⟩ | ⟨d, h⟩ := lookupFinds_or_lookupMisses s tid key hs.size_pos
  · rw [exec_del_of_finds hs h] at ht
    obtain rfl := Host.Outcome.next.inj ht
    have hpos := pathPos_lt (keyHash s.ct .id key) (s.table tid).size d hs.size_pos
    have htable := afterDel_table hs.lt_ntab key d b
    have hlen := hok.context.emptyAt_len hpos h.found
    have hcount : insertionsOf tid (.del tid key) s (s.afterDel tid key d b) = -1 :=
      if_pos ⟨rfl, statusBetween_afterDel s tid key d b⟩
    refine ⟨⟨(State.afterDel_ntab s tid key d b).symm ▸ hok.lt_ntab, ?_⟩, ?_⟩
    · rw [htable, State.afterDel_slotDepth]
      exact hok.context.emptyAt hpos h.found
    · rw [htable, hcount]
      omega
  · rw [exec_del_of_misses hs h] at ht
    obtain rfl := Host.Outcome.next.inj ht
    have hcount : insertionsOf tid (.del tid key) s (s.afterMissedDel tid key d) = 0 := by
      simp [insertionsOf, statusBetween_afterMissedDel]
    rw [hcount]
    exact hok.same_tables (by simp) (by simp)

/-- Without the fault, a command that neither creates nor releases the table changes its LEN by what it counts. -/
theorem exec_lenGrowsBy (hok : TableOk s tid) (ht : exec i s = .next t) (hf : t.fault = false)
    (hc : ∀ n, i ≠ .create tid n) (hr : ∀ cb, i ≠ .release tid cb) :
    LenGrowsBy tid (insertionsOf tid i s t) s t := by
  obtain ⟨hsf, hcheck, -⟩ := exec_of_no_fault ht hf
  by_cases hw : writtenTable i = some tid
  · cases i with
    | create k n => exact absurd (Option.some.inj hw ▸ rfl) (hc n)
    | release k cb => exact absurd (Option.some.inj hw ▸ rfl) (hr cb)
    | put k value key =>
      obtain rfl := Option.some.inj hw
      exact put_lenGrowsBy hok (hok.serves hsf ((needGenerated_or_needLive_eq_none k s).1 hcheck).1) ht
    | del k key =>
      obtain rfl := Option.some.inj hw
      exact del_lenGrowsBy hok (hok.serves hsf ((needGenerated_or_needLive_eq_none k s).1 hcheck).1) ht
    | _ => cases hw
  · rw [insertionsOf_eq_zero hw]
    exact (exec_keepsOthers ht).lenGrowsBy_zero hw hok

/-! ## Runs -/

/-- A run is its first command and the run of the others. -/
theorem runCommands_cons {is : List Instr} (h : runCommands (i :: is) s = some u) :
    ∃ t, exec i s = .next t ∧ runCommands is t = some u := by
  rw [runCommands] at h
  split at h
  · exact ⟨_, ‹_›, h⟩
  · cases h
  · cases h

/-- A run that ends without the fault began without it: the fault takes no step (`spec/60_exceptions.md` R251). -/
theorem no_fault_of_safeRun {is : List Instr} (h : SafeRun is s t) : s.fault = false := by
  obtain ⟨hrun, hf⟩ := h
  cases is with
  | nil => exact Option.some.inj hrun ▸ hf
  | cons i is =>
    obtain ⟨t', ht', -⟩ := runCommands_cons hrun
    rw [exec_eq_runCommand] at ht'
    exact (runCommand_next ht').1

theorem safeRun_cons {is : List Instr} (h : SafeRun (i :: is) s u) :
    ∃ t, exec i s = .next t ∧ t.fault = false ∧ SafeRun is t u := by
  obtain ⟨t, ht, hrun⟩ := runCommands_cons h.1
  exact ⟨t, ht, no_fault_of_safeRun ⟨hrun, h.2⟩, hrun, h.2⟩

theorem safeRun_lenGrowsBy (is : List Instr) (hok : TableOk s tid) (hrun : SafeRun is s t)
    (hc : ∀ n, Instr.create tid n ∉ is) (hr : ∀ cb, Instr.release tid cb ∉ is) :
    LenGrowsBy tid (netInsertions tid is s) s t := by
  induction is generalizing s with
  | nil =>
    obtain rfl := Option.some.inj hrun.1
    exact ⟨hok, (add_zero _).symm⟩
  | cons i is ih =>
    obtain ⟨s', hs', hf, hrun'⟩ := safeRun_cons hrun
    have hstep := exec_lenGrowsBy hok hs' hf (fun n h => hc n (h ▸ List.mem_cons_self))
      (fun cb h => hr cb (h ▸ List.mem_cons_self))
    have hrest := ih hstep.ok hrun' (fun n h => hc n (List.mem_cons_of_mem i h))
      (fun cb h => hr cb (List.mem_cons_of_mem i h))
    refine ⟨hrest.ok, ?_⟩
    rw [hrest.len, hstep.len, netInsertions_cons tid is hs', add_assoc]

/-! ## CREATE -/

/-- The context CREATE leaves: live, empty below SIZE. -/
def Context.created (c : Context) (size : Word) : Context :=
  ⟨true, size, 0#32, Memory.clearBelow c.slots size.toNat⟩

theorem clearEntry_table (hlt : tid.toNat < s.ntab) :
    (clearEntry tid s).table tid = { s.table tid with size := s.arg, len := 0#32 } :=
  State.setTable_table_same s tid _ hlt

theorem clearAll_table (hlt : tid.toNat < s.ntab) :
    (clearAll tid s).table tid =
      { s.table tid with slots := Memory.clearBelow (s.table tid).slots (s.table tid).size.toNat } :=
  State.setTable_table_same s tid _ hlt

theorem createExit_table (hlt : tid.toNat < s.ntab) :
    (createExit tid s).1.table tid = { s.table tid with valid := true } :=
  State.setTable_table_same s tid _ hlt

/-- CREATE with a legal size has emptied every slot below it (R172). -/
theorem createBody_table (hlt : tid.toNat < s.ntab) (hsize : sizeCheck s.slotDepth size = none) :
    (createBody tid size s).1.table tid = (s.table tid).created size := by
  have hentry : tid.toNat < (clearEntry tid (s.loadArg size)).ntab := by simpa [clearEntry] using hlt
  have hclear : tid.toNat < (clearAll tid (clearEntry tid (s.loadArg size))).ntab := by simpa [clearAll] using hentry
  have hbody : createBody tid size s = createExit tid (clearAll tid (clearEntry tid (s.loadArg size))) := by
    simp only [createBody, State.loadArg_slotDepth, hsize]
  rw [hbody, createExit_table hclear, clearAll_table hentry, clearEntry_table (s := s.loadArg size) hlt]
  rfl

/-- A created context meets R42, its LEN the count of its slots, 0. -/
theorem created_liveOk {depth : Nat} {c : Context} (hdepth : depth < Config.slotDepthLimit) (hwf : Memory.wf c.slots)
    (hsize : sizeCheck depth size = none) : (c.created size).LiveOk depth := by
  obtain ⟨hne, -, hle⟩ := (sizeCheck_eq_none depth size).1 hsize
  have hpos : size.toNat ≠ 0 := fun h => hne (BitVec.eq_of_toNat_eq h)
  exact ⟨hdepth, ⟨Memory.clearBelow_wf hwf _, fun _ =>
    ⟨Nat.one_le_iff_ne_zero.2 hpos, hle, (occupiedCount_clearBelow _ _).symm⟩⟩, rfl⟩

/-- A CREATE that ends without the fault leaves a live table with LEN 0. -/
theorem create_tableOk (hinv : ArchInv s) (ht : exec (.create tid size) s = .next t) (hf : t.fault = false) :
    TableOk t tid ∧ (t.table tid).len = 0#32 := by
  obtain ⟨-, hcheck, rfl⟩ := exec_of_no_fault ht hf
  obtain ⟨hlt, -⟩ := (needFree_eq_none tid s).1 hcheck
  obtain ⟨hdepth, hntab, -⟩ := exec_keepsOthers ht
  cases hsize : sizeCheck s.slotDepth size with
  | some c => simp [ownPart, createBody, hsize, emit, raiseFault] at hf
  | none =>
    have htable : (emit (createBody tid size (s.loadHeader (.create tid)))).table tid = (s.table tid).created size :=
      createBody_table (s := s.loadHeader (.create tid)) hlt hsize
    refine ⟨⟨hntab.symm ▸ hlt, ?_⟩, (congrArg Context.len htable).trans rfl⟩
    rw [hdepth]
    exact htable ▸ created_liveOk (ArchInv.slotDepth_lt hinv) (ArchInv.contextOk hinv hlt).1 hsize

/-! ## LEN -/

theorem exec_len_of_live (hf : s.fault = false) (hl : s.live tid = true) :
    exec (.len tid) s = .next ((s.loadHeader (.len tid)).answer (okResponse (s.table tid).len)) := by
  have hbody : lenBody tid (s.loadHeader (.len tid)) = (s.loadHeader (.len tid), okResponse (s.table tid).len) :=
    if_pos hl
  calc exec (.len tid) s
      = .next (emit (lenBody tid (s.loadHeader (.len tid)))) := runCommand_body (.len tid) (lenBody tid) hf rfl
    _ = _ := by rw [hbody]; exact congrArg _ (emit_of_no_fault _ hf)

end Sys2Proof.Machine
end

-- ==== The document's testable properties (`spec/42_hashtable.md` R205) ====
section
namespace Sys2Proof.Machine

variable {s : State} {tid : TableId}

/-- LEN = SIZE exactly when PUT's probe of any key meets no empty slot (R179). -/
theorem TableOk.full_iff (hok : TableOk s tid) (key : Key) :
    (s.table tid).len = (s.table tid).size ↔ InsertPasses s tid key (s.table tid).size.toNat :=
  hok.context.len_eq_size_iff.trans (insertPasses_size_iff s tid key).symm

/-- With spare capacity PUT finds an empty slot. -/
theorem TableOk.exists_putFits (hok : TableOk s tid) (hroom : (s.table tid).len ≠ (s.table tid).size) (key : Key) :
    ∃ d, PutFits s tid key d :=
  (putFits_or_insertPasses s tid key hok.context.size_pos).resolve_right fun h => hroom ((hok.full_iff key).2 h)

/-! ## GET right after PUT -/

section
variable {key : Key} {d : Nat}

/-- GET right after PUT finds the key, whichever of the two it is. -/
theorem exists_lookupFinds_afterPut (hs : Serves s tid) (h : PutFits s tid key d) (value : Word) :
    ∃ e b, LookupFinds (s.afterPut tid value key d) tid key e b := by
  obtain ⟨e, b, hfinds⟩ | ⟨e, hmiss⟩ := lookupFinds_or_lookupMisses s tid key hs.size_pos
  · have he : e < d := by
      by_contra hge
      obtain hlt | rfl := (not_lt.1 hge).lt_or_eq
      · obtain ⟨b', hb', -⟩ := hfinds.passes d hlt
        exact absurd (h.empty.symm.trans hb') nofun
      · exact absurd (h.empty.symm.trans hfinds.found) nofun
    exact ⟨e, b, (writesPath_afterPut hs h value).finds_before he hfinds⟩
  · have hde : d ≤ e := by
      by_contra hlt
      obtain ⟨b, hb⟩ := h.passes e (not_le.1 hlt)
      exact absurd ((hmiss.empty (by have := h.lt; omega)).symm.trans hb) nofun
    exact ⟨d, _, (writesPath_afterPut hs h value).finds_written h.lt
      (fun e' he' => hmiss.passes e' (by omega)) rfl (putBucket_carriesPair s value key)⟩

end

/-! ## The six rows -/

/-- First row. -/
theorem putThenGet (hok : TableOk s tid) (hf : s.fault = false) (hg : s.genDone = true)
    (hroom : (s.table tid).len ≠ (s.table tid).size) (value : Word) (key : Key) : PutThenGet s tid value key := by
  have hs := hok.serves hf hg
  obtain ⟨d, h⟩ := hok.exists_putFits hroom key
  have ht := serves_afterPut hs value key d
  have hpath := writesPath_afterPut hs h value
  obtain ⟨e, b, hfinds⟩ := exists_lookupFinds_afterPut hs h value
  have hu := exec_get_of_finds ht hfinds
  refine ⟨d, _, _, h.passes, h.empty, exec_put_of_fits hs h value, statusBetween_afterPut s tid value key d, hu,
    (get_answers_of_finds ht hfinds hu).1, fun hpass => ?_, fun e' he' hpass b' hb' hcarries => ?_⟩
  · exact (get_answers_of_finds ht (hpath.finds_written h.lt hpass rfl (putBucket_carriesPair s value key)) hu).2
  · have hold : LookupFinds s tid key e' b' := ⟨he'.trans h.lt, hpass, hb', hcarries⟩
    exact (get_answers_of_finds ht (hpath.finds_before he' hold) hu).2

/-- Second row: after a DEL that found the key its probe meets the emptied slot, after one that missed it the slots are
as they were. -/
theorem delThenGet (hok : TableOk s tid) (hf : s.fault = false) (hg : s.genDone = true) (key : Key) :
    DelThenGet s tid key := by
  have hs := hok.serves hf hg
  obtain ⟨d, b, h⟩ | ⟨d, h⟩ := lookupFinds_or_lookupMisses s tid key hs.size_pos
  · obtain ⟨u, hu, hstatus⟩ := get_not_found_of_misses (serves_afterDel hs key d b)
      ((writesPath_afterDel hs h).misses_emptied h.lt h.passes rfl)
    exact ⟨_, u, exec_del_of_finds hs h, (State.afterDel_fault s tid key d b).trans hf, hu, hstatus⟩
  · obtain ⟨u, hu, hstatus⟩ := get_not_found_of_misses (serves_afterMissedDel hs key d) (h.congr (by simp) (by simp))
    exact ⟨_, u, exec_del_of_misses hs h, (State.afterMissedDel_fault s tid key d).trans hf, hu, hstatus⟩

/-- Third row: CREATE leaves LEN 0, and every command after it changes LEN by what it counts. -/
theorem lenIsPutsMinusDels (hinv : ArchInv s) (tid : TableId) : LenIsPutsMinusDels s tid := by
  intro size is t hrun hc hr
  obtain ⟨s', hs', hf, hrun'⟩ := safeRun_cons hrun
  obtain ⟨hok, hzero⟩ := create_tableOk hinv hs' hf
  have hgrows := safeRun_lenGrowsBy is hok hrun' hc hr
  refine ⟨_, (t.table tid).len, exec_len_of_live hrun.2 hgrows.ok.live, statusBetween_of_rsp (r := okResponse _) rfl,
    resultBetween_of_rsp (r := okResponse _) rfl, ?_⟩
  calc ((t.table tid).len.toNat : Int)
      = (s'.table tid).len.toNat + netInsertions tid is s' := hgrows.len
    _ = insertionsOf tid (.create tid size) s s' + netInsertions tid is s' := by rw [hzero]; rfl
    _ = netInsertions tid (.create tid size :: is) s := (netInsertions_cons tid is hs').symm

theorem exec_create_of_size_fault (hf : s.fault = false) (hlt : tid.toNat < s.ntab)
    (hfree : (s.table tid).valid = false) {size : Word} {c : Cause} (hsize : sizeCheck s.slotDepth size = some c) :
    exec (.create tid size) s = .next (((s.loadHeader (.create tid)).loadArg size).die c) := by
  have hcheck := (needFree_eq_none tid s).2 ⟨hlt, hfree⟩
  have hbody : createBody tid size (s.loadHeader (.create tid)) =
      raiseFault c ((s.loadHeader (.create tid)).loadArg size) := by
    simp only [createBody, State.loadArg_slotDepth, State.loadHeader_slotDepth, hsize]
  rw [exec_eq_runCommand, ← emit_raiseFault, ← hbody]
  exact runCommand_body _ _ hf hcheck

/-- Fourth row: both sizes fail the first operand check (R171). -/
theorem createNonPositiveFaults (hf : s.fault = false) (hlt : tid.toNat < s.ntab)
    (hfree : (s.table tid).valid = false) : CreateNonPositiveFaults s tid := by
  intro size hsize
  have hcheck : sizeCheck s.slotDepth size = some .size := by
    have hneg : sizeNotPositive size = true := by obtain rfl | rfl := hsize <;> decide
    rw [sizeCheck, if_pos hneg]
  have hrsp := State.die_rsp_eq_bytes ((s.loadHeader (.create tid)).loadArg size) .size
  exact ⟨_, exec_create_of_size_fault hf hlt hfree hcheck, rfl, rfl, statusBetween_of_rsp hrsp,
    resultBetween_of_rsp hrsp⟩

/-- Fifth row: a PUT that finds an empty slot answers OK on a table that is not full, one that comes back to START
answers CAPACITY_EXHAUSTED on a full one. -/
theorem putExhaustedIffFull (hok : TableOk s tid) (hf : s.fault = false) (hg : s.genDone = true) (value : Word)
    (key : Key) : PutExhaustedIffFull s tid value key := by
  have hs := hok.serves hf hg
  by_cases hfull : (s.table tid).len = (s.table tid).size
  · refine ⟨_, exec_put_of_full hs ((hok.full_iff key).1 hfull) value, fun _ => hfull, fun _ => ?_⟩
    exact statusBetween_afterFullPut s tid value key
  · obtain ⟨d, h⟩ := hok.exists_putFits hfull key
    refine ⟨_, exec_put_of_fits hs h value, fun hstatus => ?_, fun h => absurd h hfull⟩
    rw [statusBetween_afterPut] at hstatus
    exact absurd hstatus (by decide)

/-- With the callback RELEASE's value words are those of the occupied slots, the free order a permutation of them
(R200, R201). -/
theorem releaseBody_response (tid : TableId) (s : State) :
    ∃ vals, (releaseBody tid true s).2 = ⟨.ok, BitVec.ofNat 32 vals.length, vals⟩ ∧
      vals.Perm (occupiedValues (s.table tid).slots (s.table tid).size.toNat) :=
  ⟨_, rfl, permuteBy_perm _ _ _ _⟩

theorem releaseBody_rsp (tid : TableId) (cb : Bool) (s : State) : (releaseBody tid cb s).1.rsp = s.rsp := by
  simp [releaseBody, releaseExit, releaseEntry]

/-- Sixth row. -/
theorem releaseEmitsEachValueOnce (hf : s.fault = false) (hl : s.live tid = true) :
    ReleaseEmitsEachValueOnce s tid := by
  have hexec : exec (.release tid true) s =
      .next (emit (releaseBody tid true (s.loadHeader (.release tid true)))) :=
    runCommand_body (.release tid true) (releaseBody tid true) hf ((needLive_eq_none tid s).2 hl)
  obtain ⟨vals, hresponse, hperm⟩ := releaseBody_response tid (s.loadHeader (.release tid true))
  refine ⟨_, vals, hexec, ?_, hperm⟩
  simp only [emit_rsp, releaseBody_rsp, State.loadHeader_rsp, hresponse, Response.bytes, statusCode, List.append_assoc]

/-- Settles O57: each row by its own theorem, the invariant giving what it needs of the table. -/
theorem testableProperties : Obligations.TestableProperties := by
  intro tid s hinv hf
  refine ⟨fun value key hg hl => ?_, lenIsPutsMinusDels hinv tid, createNonPositiveFaults hf,
    releaseEmitsEachValueOnce hf⟩
  have hok := ArchInv.tableOk hinv hl
  exact ⟨fun hroom => putThenGet hok hf hg hroom value key, delThenGet hok hf hg key,
    putExhaustedIffFull hok hf hg value key⟩

end Sys2Proof.Machine
end

-- ==== The handshake (`spec/43_controller.md` R223) ====
section
namespace Sys2Proof.Machine

/-- `cmd_ready` is 1 in the receiving phases and in no other (R223; log entry 7). -/
theorem cmdReady_iff (s : State) :
    cmdReady s = true ↔ s.phase = .idle ∨ s.phase = .recvH ∨ s.phase = .recvA ∨ s.phase = .key := by
  cases hp : s.phase <;> simp [cmdReady, hp]

/-- `rsp_valid` is 1 while RESP still has a byte to send. -/
theorem rspValid_iff (s : State) : rspValid s = true ↔ s.phase = .resp ∧ s.tx ≠ [] := by
  simp [rspValid]

/-- A receiving phase waits for `cmd_valid`. -/
theorem tick_of_cmdReady {s : State} {p : Pins} (hrst : p.rst = false) (hready : cmdReady s = true)
    (hvalid : p.cmdValid = false) : tick p s = s := by
  obtain hp | hp | hp | hp := (cmdReady_iff s).1 hready
  all_goals simp [tick, hrst, hp, hvalid]

/-- RESP waits for `rsp_ready`. -/
theorem tick_of_resp {s : State} {p : Pins} (hrst : p.rst = false) (hp : s.phase = .resp)
    (hready : p.rspReady = false) : tick p s = s := by
  simp [tick, hrst, hp, hready]

/-- Settles O55: the phases read off the two ready signals, and the wait in each of them. -/
theorem handshakeWaits : Obligations.HandshakeWaits := fun s =>
  ⟨(cmdReady_iff s).1, fun h => ((rspValid_iff s).1 h).1, fun _ hrst => ⟨tick_of_cmdReady hrst, tick_of_resp hrst⟩⟩

end Sys2Proof.Machine
end

-- ==== Fault entry (`spec/60_exceptions.md` R250) ====
section
namespace Sys2Proof.Machine

variable {i : Instr} {s t : State}

/-! ## FAULT through the parts of a command -/

@[simp] theorem generateBody_fault (s : State) : (generateBody s).1.fault = s.fault := by
  rw [generateBody]
  split
  · rfl
  · rw [runGeneration, State.setGenerated_fault, State.loadGen_fault]

@[simp] theorem putExit_fault (tid : TableId) (found : Option (Option Bucket)) (s : State) :
    (putExit tid found s).1.fault = s.fault := by
  cases found <;> rfl

@[simp] theorem delExit_fault (tid : TableId) (found : Option (Option Bucket)) (s : State) :
    (delExit tid found s).1.fault = s.fault := by
  obtain _ | _ | _ := found <;> rfl

@[simp] theorem releaseBody_fault (tid : TableId) (cb : Bool) (s : State) : (releaseBody tid cb s).1.fault = s.fault := by
  simp [releaseBody, releaseExit, releaseEntry]

/-- Hashing the key and running the probe leave FAULT alone; the rest is the exit's. -/
theorem runProbe_fault {exit : Option (Option Bucket) → State → Result}
    (hexit : ∀ found s, (exit found s).1.fault = s.fault) (stops : Option Bucket → Bool) (tid : TableId) (key : Key)
    (s : State) : (runProbe tid stops exit ((s.hashKey key).startProbe tid)).1.fault = s.fault := by
  rw [runProbe, hexit, State.loadCursor_fault, State.startProbe_fault, State.hashKey_fault]

/-- CREATE's own part raises the fault with ARG as the one register it has written, or leaves FAULT alone. -/
theorem createBody_raises_or_keeps (tid : TableId) (size : Word) (s : State) :
    (∃ c, createBody tid size s = raiseFault c (s.loadArg size)) ∨ (createBody tid size s).1.fault = s.fault := by
  rw [createBody]
  split
  · next c _ => exact .inl ⟨c, rfl⟩
  · exact .inr (by simp [createExit, clearAll, clearEntry])

/-- Past the header checks only CREATE has a check left to fail (`spec/60_exceptions.md` R255, point 4). -/
theorem ownPart_raises_or_keeps (i : Instr) (s : State) :
    (∃ c a, ownPart i s = raiseFault c (s.loadArg a)) ∨ (ownPart i s).1.fault = s.fault := by
  cases i with
  | generate => exact .inr (generateBody_fault s)
  | hash ch key => exact .inr (State.loadLanes_fault s _)
  | create tid size => exact (createBody_raises_or_keeps tid size s).imp_left fun ⟨c, hc⟩ => ⟨c, size, hc⟩
  | put tid value key => exact .inr (runProbe_fault (putExit_fault tid) _ tid key (s.loadArg value))
  | get tid key => exact .inr (runProbe_fault (fun found s => by rw [getExit_state]) _ tid key s)
  | getindex tid idx => exact .inr (by rw [ownPart, getindexBody, getindexExit_state, State.loadArg_fault])
  | del tid key => exact .inr (runProbe_fault (delExit_fault tid) _ tid key s)
  | len tid => exact .inr (by rw [ownPart, lenBody_state])
  | release tid cb => exact .inr (releaseBody_fault tid cb s)

/-! ## The state after the fault -/

/-- A command that raises the fault has loaded OPC and ARG at most, whichever check failed. -/
theorem exec_of_fault (ht : exec i s = .next t) (hf : t.fault = true) :
    ∃ c a, t = ((s.loadHeader (headerOf i)).loadArg a).die c := by
  rw [exec_eq_runCommand] at ht
  obtain ⟨hs, ⟨c, -, rfl⟩ | ⟨-, rfl⟩⟩ := runCommand_next ht
  · exact ⟨c, s.arg, rfl⟩
  · obtain ⟨c, a, hraise⟩ | hkeeps := ownPart_raises_or_keeps i (s.loadHeader (headerOf i))
    · exact ⟨c, a, by rw [hraise, emit_raiseFault]⟩
    · rw [emit_fault, hkeeps, State.loadHeader_fault, hs] at hf
      cases hf

/-- The causes are numbered 1 to 6 (`spec/60_exceptions.md` R245). -/
theorem causeCode_bounds (c : Cause) : 1#4 ≤ causeCode c ∧ causeCode c ≤ 6#4 := by
  cases c <;> decide

/-- Settles O39: the fault is raised over OPC and ARG only, and its status word is written out in bytes. -/
theorem faultsArePrecise : Obligations.FaultsArePrecise := by
  intro i s t _ ht hf
  obtain ⟨c, a, rfl⟩ := exec_of_fault ht hf
  have hstatus : bytesOfWord 5#32 = [5#8, 0#8, 0#8, 0#8] := by decide
  refine ⟨c, ?_, causeCode_bounds c⟩
  rw [← hstatus]
  rfl

end Sys2Proof.Machine
end

-- ==== Reset (`spec/70_reset_and_hazards.md` R280) ====
section
namespace Sys2Proof.Machine

/-- Reset comes before everything else a clock edge could do, whatever the phase (`spec/70_reset_and_hazards.md` R280). -/
theorem tick_of_rst {s : State} {p : Pins} (hrst : p.rst = true) : tick p s = pulseReset s :=
  if_pos hrst

/-- A machine keeps its number of contexts through reset: NTAB is a parameter. -/
theorem pulseReset_tables_length (s : State) : (pulseReset s).tables.length = s.tables.length :=
  List.length_replicate

/-- No context is live right after reset (`spec/10_state.md` R44), however many there are. -/
theorem resetWith_tables_not_valid (params : Config.Params) :
    ∀ c ∈ (State.resetWith params).tables, c.valid = false := by
  intro c hc
  obtain rfl : c = Context.reset := List.eq_of_mem_replicate hc
  rfl

/-- Settles O49: a tick with `rst` is `pulseReset`, whose scalar registers are constants of the reset state; the contexts
are the fresh ones of `resetWith`, for the worked parameters too. -/
theorem resetAbandonsEverything : Obligations.ResetAbandonsEverything := by
  refine ⟨fun p s hrst => ?_, rfl, rfl, rfl, resetWith_tables_not_valid _, rfl⟩
  rw [tick_of_rst hrst]
  exact ⟨rfl, rfl, rfl, pulseReset_tables_length s, resetWith_tables_not_valid s.params, rfl, rfl, rfl, rfl⟩

end Sys2Proof.Machine
end

-- ==== Decoding and encoding are inverse (`spec/30_encoding.md` R92 to R96, R102) ====
section
namespace Sys2Proof

/-! ## The header word of a decoded header (`spec/30_encoding.md` R93, R96) -/

theorem channelOfCode_eq_some {x : BitVec 3} {c : Channel} (h : channelOfCode x = some c) : channelCode c = x := by
  revert c; revert x; decide

theorem ofBool_beq_one (b : BitVec 1) : BitVec.ofBool (b == 1) = b := by
  revert b; decide

/-- A header passes the check exactly when its unused fields are zero. -/
theorem checkUnused_ok {w : Word} {usesCh usesCb usesTid : Bool} {r h : Header}
    (hw : checkUnused w usesCh usesCb usesTid r = .ok h) :
    r = h ∧ (usesCh = false → fieldCh w = 0) ∧ (usesCb = false → fieldCb w = 0) ∧
      (usesTid = false → fieldTid w = 0) := by
  unfold checkUnused at hw
  split at hw
  · cases hw
  · split at hw
    · cases hw
    · split at hw
      · cases hw
      · simp_all

theorem eq_headerOfFields {w : Word} {op : BitVec 4} {ch : BitVec 3} {cb : BitVec 1} {tid : TableId}
    (hres : fieldReserved w = 0#16) (hop : fieldOp w = op) (hch : fieldCh w = ch) (hcb : fieldCb w = cb)
    (htid : fieldTid w = tid) : w = headerOfFields op ch cb tid := by
  simp [word_eq_iff_fields, hres, hop, hch, hcb, htid]

/-- A legal header word is the one the encoder makes of what it decodes to: each field is the command's or zero. -/
theorem eq_encodeHeader_of_decodeHeader {w : Word} {h : Header} (hw : decodeHeader w = .ok h) : w = encodeHeader h := by
  have hop : ∀ {n : Nat} (hn : n < 2 ^ 4), (fieldOp w).toNat = n → fieldOp w = BitVec.ofNat 4 n := fun hn e =>
    BitVec.eq_of_toNat_eq (by rw [e, BitVec.toNat_ofNat, Nat.mod_eq_of_lt hn])
  unfold decodeHeader at hw
  split at hw
  · cases hw
  · next hres =>
    have hres : fieldReserved w = 0#16 := by simpa using hres
    split at hw
    case h_2 e =>
      split at hw
      · next c hc =>
        obtain ⟨rfl, -, hcb, htid⟩ := checkUnused_ok hw
        exact eq_headerOfFields hres (hop (by decide) e) (channelOfCode_eq_some hc).symm (hcb rfl) (htid rfl)
      · cases hw
    case h_9 e =>
      obtain ⟨rfl, hch, -, -⟩ := checkUnused_ok hw
      exact eq_headerOfFields hres (hop (by decide) e) (hch rfl) (ofBool_beq_one _).symm rfl
    case h_10 => cases hw
    case h_1 e =>
      obtain ⟨rfl, hch, hcb, htid⟩ := checkUnused_ok hw
      exact eq_headerOfFields hres (hop (by decide) e) (hch rfl) (hcb rfl) (htid rfl)
    all_goals
      next e =>
      obtain ⟨rfl, hch, hcb, -⟩ := checkUnused_ok hw
      exact eq_headerOfFields hres (hop (by decide) e) (hch rfl) (hcb rfl) rfl

/-! ## The command of a decoded packet (`spec/30_encoding.md` R92, R94, R102) -/

theorem needPart_eq_packet {α : Type} {part : Option (α × List Byte)} {k : α → List Byte → Fetched} {i : Instr}
    {rest : List Byte} (h : needPart part k = .packet i rest) : ∃ x r, part = some (x, r) ∧ k x r = .packet i rest := by
  cases part with
  | none => cases h
  | some xr => exact ⟨xr.1, xr.2, rfl, h⟩

/-- The parts after a legal header are the body of the command they decode to, and no key holds a zero byte. -/
theorem eq_encodeBody_of_decodeBody {h : Header} {bytes rest : List Byte} {i : Instr}
    (hb : decodeBody h bytes = .packet i rest) :
    i.wf = true ∧ headerOf i = h ∧ bytes = encodeBody i ++ rest := by
  cases h with
  | generate | len | release => cases hb; exact ⟨rfl, rfl, rfl⟩
  | hash | get | del =>
    obtain ⟨key, r, hkey, hk⟩ := needPart_eq_packet hb
    cases hk
    obtain ⟨hwf, hbytes⟩ := takeKey_eq_some hkey
    exact ⟨hwf, rfl, hbytes⟩
  | create | getindex =>
    obtain ⟨w, r, hword, hk⟩ := needPart_eq_packet hb
    cases hk
    exact ⟨rfl, rfl, takeWord_eq_some hword⟩
  | put =>
    obtain ⟨w, r, hword, hk⟩ := needPart_eq_packet hb
    obtain ⟨key, r', hkey, hk'⟩ := needPart_eq_packet hk
    cases hk'
    obtain ⟨hwf, hbytes⟩ := takeKey_eq_some hkey
    exact ⟨hwf, rfl, by rw [takeWord_eq_some hword, hbytes, encodeBody, List.append_assoc]⟩

theorem eq_encode_of_decodePacket {bytes rest : List Byte} {i : Instr} (h : decodePacket bytes = .packet i rest) :
    i.wf = true ∧ bytes = encode i ++ rest := by
  obtain ⟨w, r, hword, hk⟩ := needPart_eq_packet h
  split at hk
  · next hd hw =>
    obtain ⟨hwf, rfl, rfl⟩ := eq_encodeBody_of_decodeBody hk
    rw [takeWord_eq_some hword, eq_encodeHeader_of_decodeHeader hw, encode, List.append_assoc]
    exact ⟨hwf, rfl⟩
  · cases hk

/-- Settles O1: the header word reads back field by field, the body part by part. -/
theorem decodeEncodeRoundTrip : Obligations.DecodeEncodeRoundTrip := fun _ rest hwf => decodePacket_encode hwf rest

/-- Settles O2: every part the decoder takes is the one the encoder makes of it. -/
theorem decodedPacketIsEncoding : Obligations.DecodedPacketIsEncoding := fun _ _ _ h => eq_encode_of_decodePacket h

/-! ## The rows of the opcode map (`spec/30_encoding.md` R96) -/

/-- The row of a command in `opcodeRows`. -/
def rowIndex : Header → Nat
  | .generate => 0
  | .hash _ => 1
  | .create _ => 2
  | .put _ => 3
  | .get _ => 4
  | .getindex _ => 5
  | .del _ => 6
  | .len _ => 7
  | .release _ _ => 8

/-- The header word of a command matches the command's row. -/
theorem encodeHeader_matches_row (h : Header) :
    ∃ r, opcodeRows[rowIndex h]? = some r ∧ encodeHeader h &&& r.2 = r.1 := by
  rw [opcodeRows_eq]
  cases h <;> exact ⟨_, rfl, (and_headerMask_eq_iff _ _ _ _ _).2 (by simp [encodeHeader])⟩

/-- The rows have nine different opcodes, so a word matches one of them at most. -/
theorem matching_rows_length_le_one (w : Word) : (opcodeRows.filter fun r => w &&& r.2 = r.1).length ≤ 1 := by
  simp only [opcodeRows_eq, List.filter_cons, and_headerMask_eq_iff, List.filter_nil]
  rcases opcode_cases (fieldOp w) with hop | hop | hop | hop | hop | hop | hop | hop | hop | hop
  case inl =>
    have hne : ∀ k ∈ [1#4, 2#4, 3#4, 4#4, 5#4, 6#4, 7#4, 8#4, 9#4], fieldOp w ≠ k := by
      generalize fieldOp w = op at hop
      revert op; decide
    simp only [List.forall_mem_cons] at hne
    simp [hne]
  all_goals
    simp [hop]
    split <;> simp

/-- Settles O3: a legal word is its command's header word, which matches its row; a word that matches a row is illegal
only as HASH with a reserved channel; and the rows' opcodes tell them apart. -/
theorem opcodeRowsSelectCommands : Obligations.OpcodeRowsSelectCommands := by
  refine ⟨fun w h hw => ?_, fun w hrow hch => ?_, matching_rows_length_le_one⟩
  · obtain rfl := eq_encodeHeader_of_decodeHeader hw
    obtain ⟨r, hr, hmatch⟩ := encodeHeader_matches_row h
    exact ⟨r, by cases h <;> exact hr, hmatch⟩
  · cases hw : decodeHeader w with
    | ok h => exact ⟨h, rfl⟩
    | error why =>
      obtain hno | hhash := (illegalFields_iff_no_row w).1 ((decodeHeader_error_iff w).1 ⟨why, hw⟩)
      · obtain ⟨r, hr, hmatch⟩ := hrow
        exact absurd hmatch (hno r hr)
      · exact absurd hhash hch

end Sys2Proof
end

-- ==== GENERATE and the constant table (`spec/40_crypttable.md` R131 to R137) ====
section
namespace Sys2Proof.Machine

/-! ## One pass of the loop (`spec/40_crypttable.md` R134, R135) -/

/-- The closed form R134 at the index of pass `k`: the halves of the steps `2k+1` and `2k+2`. -/
theorem ctConstantWord_generatedIndex {k : Nat} (hk : k < Config.ctWords) :
    ctConstantWord (generatedIndex k) = ctWordOfSteps (lcgSeq (2 * k + 1)) (lcgSeq (2 * k + 2)) := by
  have hk : k < 1280 := hk
  have hmod : generatedIndex k % Config.bankWords = k / 5 := by simp only [generatedIndex, Config.bankWords]; omega
  have hdiv : generatedIndex k / Config.bankWords = k % 5 := by simp only [generatedIndex, Config.bankWords]; omega
  have hsteps : 10 * (k / 5) + 2 * (k % 5) = 2 * k := by omega
  simp only [ctConstantWord, hmod, hdiv, hsteps]

theorem genIter_genRegsAt_constant {k : Nat} (hk : k < Config.ctWords) (ct : Memory Word) :
    genIter (genRegsAt k, ct) =
      (genRegsAt (k + 1), ctWrite ct (generatedIndex k) (ctConstantWord (generatedIndex k))) := by
  rw [genIter_genRegsAt, genIndex_genRegsAt hk, ctConstantWord_generatedIndex hk]

theorem generatedIndex_lt {k : Nat} (hk : k < Config.ctWords) : generatedIndex k < Config.ctWords := by
  simp only [generatedIndex, Config.bankWords, Config.ctWords] at *
  omega

/-- The passes write every word of the table. -/
theorem generatedIndex_surj {n : Nat} (hn : n < Config.ctWords) : ∃ k < Config.ctWords, generatedIndex k = n := by
  refine ⟨5 * (n % 256) + n / 256, ?_, ?_⟩ <;>
  · simp only [generatedIndex, Config.bankWords, Config.ctWords] at *
    omega

/-! ## The whole loop -/

/-- The words that the first `k` passes produce stand in CT. -/
def HoldsGenerated (k : Nat) (ct : Memory Word) : Prop :=
  ∀ j < k, ctRead ct (generatedIndex j) = ctConstantWord (generatedIndex j)

theorem HoldsGenerated.write {k : Nat} {ct : Memory Word} (h : HoldsGenerated k ct) :
    HoldsGenerated (k + 1) (ctWrite ct (generatedIndex k) (ctConstantWord (generatedIndex k))) := by
  intro j hj
  rw [ctRead_ctWrite]
  split
  · next heq => rw [heq]
  · next hne => exact h j (lt_of_le_of_ne (Nat.lt_succ_iff.1 hj) fun e => hne (by rw [e]))

/-- When all passes are done CT holds the constant. -/
theorem HoldsGenerated.ctIsConstant {ct : Memory Word} (h : HoldsGenerated Config.ctWords ct) : CtIsConstant ct := by
  intro n hn
  obtain ⟨k, hk, rfl⟩ := generatedIndex_surj hn
  exact h k hk

theorem genLoop_eq {k : Nat} (hk : k < Config.ctWords) (ct : Memory Word) :
    genLoop (k + 1) (genRegsInit, ct) =
      (genRegsAt (k + 1), ctWrite (genLoop k (genRegsInit, ct)).2 (generatedIndex k)
        (ctConstantWord (generatedIndex k))) := by
  rw [genLoop_succ, ← Prod.eta (genLoop k _), genLoop_regs, genIter_genRegsAt_constant hk]

theorem holdsGenerated_genLoop {k : Nat} (hk : k ≤ Config.ctWords) (ct : Memory Word) :
    HoldsGenerated k (genLoop k (genRegsInit, ct)).2 := by
  induction k with
  | zero => exact fun j hj => absurd hj (Nat.not_lt_zero j)
  | succ k ih =>
    rw [genLoop_eq hk]
    exact (ih (Nat.le_of_lt hk)).write

/-- The passes write no word outside the 1280. -/
theorem ctRead_genLoop_of_ge {k n : Nat} (hk : k ≤ Config.ctWords) (hn : Config.ctWords ≤ n) (ct : Memory Word) :
    ctRead (genLoop k (genRegsInit, ct)).2 n = ctRead ct n := by
  induction k with
  | zero => rfl
  | succ k ih =>
    have hne : generatedIndex k ≠ n := ((generatedIndex_lt hk).trans_le hn).ne
    rw [genLoop_eq hk, ctRead_ctWrite, if_neg hne, ih (Nat.le_of_lt hk)]

/-- R134: the loop leaves the constant in CT, whatever CT held. -/
theorem ctIsConstant_genLoop (ct : Memory Word) : CtIsConstant (genLoop Config.ctWords (genRegsInit, ct)).2 :=
  (holdsGenerated_genLoop le_rfl ct).ctIsConstant

/-! ## The sequence s(n) in plain arithmetic (`spec/40_crypttable.md` R132, R134) -/

theorem lcgSeq_toNat {sq : Nat → Nat} (h0 : sq 0 = 0x100001) (hstep : ∀ n, sq (n + 1) = (sq n * 125 + 3) % 0x2AAAAB)
    (n : Nat) : (lcgSeq n).toNat = sq n := by
  induction n with
  | zero => exact h0.symm
  | succ n ih => exact (lcgStep_toNat (lcgSeq n)).trans (by rw [ih, hstep])

/-- A word's value from the low halves of its two steps. -/
theorem ctWordOfSteps_toNat (hi lo : BitVec 22) :
    (ctWordOfSteps hi lo).toNat = hi.toNat % 65536 * 65536 + lo.toNat % 65536 := by
  have hlo : lo.toNat % 65536 < 2 ^ 16 := Nat.mod_lt _ (by decide)
  simp only [ctWordOfSteps, BitVec.toNat_append, BitVec.extractLsb'_toNat, Nat.shiftRight_zero]
  rw [← Nat.shiftLeft_add_eq_or_of_lt hlo, Nat.shiftLeft_eq]

theorem ctConstantWord_eq {i p : Nat} (hi : i < 256) :
    ctConstantWord (i + 256 * p) = ctWordOfSteps (lcgSeq (10 * i + 2 * p + 1)) (lcgSeq (10 * i + 2 * p + 2)) := by
  have hmod : (i + 256 * p) % Config.bankWords = i := by simp only [Config.bankWords]; omega
  have hdiv : (i + 256 * p) / Config.bankWords = p := by simp only [Config.bankWords]; omega
  simp only [ctConstantWord, hmod, hdiv]

/-- The last two terms of the sequence that GENERATE computes. -/
theorem lcgSeq_last : lcgSeq 2559 = 0x0E7303#22 ∧ lcgSeq 2560 = 0x0E286C#22 := by decide +kernel

/-- The words that R134 lists. -/
theorem ctConstantWord_listed :
    ctConstantWord 0 = 0x55C636E2#32 ∧ ctConstantWord 1 = 0x02BE0170#32 ∧ ctConstantWord 2 = 0x584B71D4#32 ∧
      ctConstantWord 3 = 0x2984F00E#32 ∧ ctConstantWord 256 = 0x76F8C1B1#32 ∧ ctConstantWord 512 = 0x3DF6965D#32 ∧
      ctConstantWord 768 = 0x15F261D3#32 ∧ ctConstantWord 1024 = 0x193AA698#32 ∧ ctConstantWord 1279 = 0x7303286C#32 := by
  have hlast : ctConstantWord 1279 = ctWordOfSteps (lcgSeq 2559) (lcgSeq 2560) := ctConstantWord_eq (p := 4) (by decide)
  rw [hlast, lcgSeq_last.1, lcgSeq_last.2]
  decide

/-! ## The command GENERATE (`spec/40_crypttable.md` R131, R137) -/

/-- The first GENERATE runs the whole loop; no check of it fails. -/
theorem exec_generate_first {s : State} (hf : s.fault = false) (hg : s.genDone = false) :
    exec .generate s =
      .next ((((s.loadHeader .generate).loadGen (genLoop Config.ctWords (genRegsInit, s.ct))).setGenerated).answer
        (okResponse 0#32)) := by
  have hbody : generateBody (s.loadHeader .generate) = (runGeneration (s.loadHeader .generate), okResponse 0#32) := by
    simp only [generateBody, State.loadHeader_genDone, hg, Bool.false_eq_true, if_false]
  have hfault : (runGeneration (s.loadHeader .generate)).fault = false := by
    rw [runGeneration, State.setGenerated_fault, State.loadGen_fault, State.loadHeader_fault, hf]
  rw [exec_eq_runCommand, runCommand_body (headerOf .generate) _ hf rfl, ownPart, headerOf, hbody,
    emit_of_no_fault _ hfault, runGeneration, State.loadHeader_ct]

/-- A later GENERATE finds GEN_DONE = 1 and runs nothing. -/
theorem exec_generate_again {s : State} (hf : s.fault = false) (hg : s.genDone = true) :
    exec .generate s = .next ((s.loadHeader .generate).answer (okResponse 0#32)) := by
  have hbody : generateBody (s.loadHeader .generate) = (s.loadHeader .generate, okResponse 0#32) := if_pos hg
  calc exec .generate s
      = .next (emit (generateBody (s.loadHeader .generate))) := runCommand_body .generate generateBody hf rfl
    _ = _ := by rw [hbody]; exact congrArg _ (emit_of_no_fault _ hf)

/-- Settles O13: the header is loaded and the response sent. -/
theorem secondGenerateChangesNothing : Obligations.SecondGenerateChangesNothing := fun _ => exec_generate_again

/-- What the loop leaves, in the terms of R134. -/
theorem generated_table_reads {sq : Nat → Nat} (h0 : sq 0 = 0x100001)
    (hstep : ∀ n, sq (n + 1) = (sq n * 125 + 3) % 0x2AAAAB) {ct : Memory Word} (hct : CtIsConstant ct) {i p : Nat}
    (hi : i < 256) (hp : p < 5) :
    (ctRead ct (i + 256 * p)).toNat = sq (10 * i + 2 * p + 1) % 65536 * 65536 + sq (10 * i + 2 * p + 2) % 65536 := by
  have hn : i + 256 * p < Config.ctWords := by simp only [Config.ctWords]; omega
  rw [hct _ hn, ctConstantWord_eq hi, ctWordOfSteps_toNat, lcgSeq_toNat h0 hstep, lcgSeq_toNat h0 hstep]

/-- LSEED after the last pass: two steps a pass. -/
theorem genLoop_lseed (ct : Memory Word) : (genLoop Config.ctWords (genRegsInit, ct)).1.lseed = lcgSeq 2560 := by
  have hsteps : 2 * Config.ctWords = 2560 := rfl
  rw [genLoop_regs, genRegsAt, hsteps]

/-- What the first GENERATE leaves: the registers and the table of a loop that has run to its end. -/
theorem exists_generated {s : State} (hf : s.fault = false) (hg : s.genDone = false) :
    ∃ x : GenRegs × Memory Word,
      exec .generate s =
        .next ((((s.loadHeader .generate).loadGen x).setGenerated).answer (okResponse 0#32)) ∧
      CtIsConstant x.2 ∧ (∀ n, Config.ctWords ≤ n → ctRead x.2 n = ctRead s.ct n) ∧ x.1.lseed = lcgSeq 2560 :=
  ⟨_, exec_generate_first hf hg, ctIsConstant_genLoop s.ct, fun _ hn => ctRead_genLoop_of_ge le_rfl hn s.ct,
    genLoop_lseed s.ct⟩

/-- Settles O10: the 1280 passes leave the constant and the seed of step 2560, and the command writes nothing else. -/
theorem generatedTableIsTheConstant : Obligations.GeneratedTableIsTheConstant := by
  intro sq s h0 hstep hf hg
  obtain ⟨x, hexec, hct, hrest, hseed⟩ := exists_generated hf hg
  obtain ⟨w0, w1, w2, w3, w256, w512, w768, w1024, w1279⟩ := ctConstantWord_listed
  refine ⟨_, hexec, fun i hi p hp => generated_table_reads h0 hstep hct hi hp, hrest,
    (congrArg BitVec.toNat hseed).trans (lcgSeq_toNat h0 hstep 2560), ?_, ?_⟩
  · rw [← lcgSeq_toNat h0 hstep, lcgSeq_last.2]
    rfl
  · exact ⟨(hct _ (by decide)).trans w0, (hct _ (by decide)).trans w1, (hct _ (by decide)).trans w2,
      (hct _ (by decide)).trans w3, (hct _ (by decide)).trans w256, (hct _ (by decide)).trans w512,
      (hct _ (by decide)).trans w768, (hct _ (by decide)).trans w1024, (hct _ (by decide)).trans w1279, rfl⟩

end Sys2Proof.Machine
end

-- ==== One pass, one bank (`spec/41_hash.md` R155, R157, `spec/20_memory.md` R62) ====
section
namespace Sys2Proof.Machine

/-- Settles O16: the three lanes do not read one another. -/
theorem lanesEqualThreeRuns : Obligations.LanesEqualThreeRuns := lanesRun_eq

/-- Settles O17: no check of HASH fails once the table is generated. -/
theorem hashAnswersTheHash : Obligations.HashAnswersTheHash := fun c key _ hf hg => exec_hash hf hg c key

/-- A key byte selects a word of its channel's bank other than the first. -/
theorem ctIndex_in_bank (c : Channel) {ch : Byte} (hne : ch ≠ 0#8) :
    (channelCode c).toNat * 256 < ctIndex c ch ∧ ctIndex c ch < (channelCode c).toNat * 256 + 256 := by
  have hpos : 0 < ch.toNat := Nat.pos_of_ne_zero fun h => hne (BitVec.eq_of_toNat_eq h)
  have hlt := ch.isLt
  rw [ctIndex_eq_mul_add]
  omega

/-- Settles O19: a hash reads CT at its key's bytes only, and those select words of the bank. -/
theorem hashReadsItsBankOnly : Obligations.HashReadsItsBankOnly := by
  intro ct ct' c key hwf hagree
  refine keyHash_congr fun ch hch => ?_
  have hne : ch ≠ 0#8 := by simpa using List.all_eq_true.1 hwf ch hch
  obtain ⟨hlow, hhigh⟩ := ctIndex_in_bank c hne
  exact hagree _ hlow hhigh

end Sys2Proof.Machine
end

-- ==== The probe registers (`spec/42_hashtable.md` R176) ====
section
namespace Sys2Proof.Machine

theorem pathPos_zero (idHash size : Word) : pathPos idHash size 0 = idHash.toNat % size.toNat := Nat.mod_mod _ _

theorem pathPos_succ (idHash size : Word) (d : Nat) :
    pathPos idHash size (d + 1) = (pathPos idHash size d + 1) % size.toNat := by
  simp only [pathPos, Nat.mod_add_mod, Nat.add_assoc]

/-- A whole turn leads back to START. -/
theorem pathPos_size (idHash size : Word) : pathPos idHash size size.toNat = pathPos idHash size 0 :=
  Nat.add_mod_right _ _

/-- CNT counts up to SIZE[t] without wrapping. -/
theorem cursorAt_cnt_toNat (idHash size : Word) {d : Nat} (h : d ≤ size.toNat) :
    (cursorAt idHash size d).cnt.toNat = d := by
  have hlt := size.isLt
  exact (BitVec.toNat_ofNat _ _).trans (Nat.mod_eq_of_lt (by omega))

/-- Settles O22: the registers after `e` advances are `cursorAt`, whose positions run through the slots once. -/
theorem probeVisitsEverySlotOnce : Obligations.ProbeVisitsEverySlotOnce := by
  intro idHash size slots h
  have hcur : ∀ e, cursorSteps size e (cursorStart idHash size) = cursorAt idHash size e := cursorSteps_start idHash size h
  have hpos : ∀ e, (cursorAt idHash size e).pos.toNat = pathPos idHash size e := fun e => cursorAt_pos idHash size e h
  simp only [hcur]
  rw [cursorStart_eq]
  refine ⟨⟨(hpos 0).trans (pathPos_zero _ _), rfl, rfl⟩, fun e => ⟨?_, rfl, hpos e⟩,
    fun e he => cursorAt_cnt_toNat idHash size he, fun e e' he he' heq => ?_, fun i hi => ?_,
    fun stops d hd hpass hstop => ?_, ?_, ?_, BitVec.eq_of_toNat_eq (cursorAt_cnt_toNat idHash size le_rfl)⟩
  · rw [hpos, hpos, pathPos_succ]
  · exact pathPos_inj he he' ((hpos e).symm.trans ((congrArg BitVec.toNat heq).trans (hpos e')))
  · obtain ⟨e, he, hi⟩ := pathPos_surj idHash hi
    exact ⟨e, he, (hpos e).trans hi⟩
  · simp only [hpos] at hpass hstop ⊢
    simpa using probeLoop_stops stops slots idHash size h size.toNat d 0 hd (by simpa using hpass) (by simpa using hstop)
  · simpa using probeLoop_wraps (fun _ => false) slots idHash size h size.toNat 0 fun _ _ => rfl
  · exact congrArg (BitVec.ofNat 32) (pathPos_size idHash size)

end Sys2Proof.Machine
end

-- ==== PUT, GET and DEL slot by slot (`spec/42_hashtable.md` R177, R185, R191) ====
section
namespace Sys2Proof.Machine

variable {s t u : State} {tid : TableId} {key : Key} {d : Nat}

theorem slotRead_fillAt (c : Context) (p i : Nat) (b : Bucket) :
    slotRead (c.fillAt p b).slots i = if p = i then some b else slotRead c.slots i :=
  slotRead_slotWrite c.slots p i (some b)

theorem slotRead_emptyAt (c : Context) (p i : Nat) :
    slotRead (c.emptyAt p).slots i = if p = i then none else slotRead c.slots i :=
  slotRead_slotWrite c.slots p i none

/-- A command whose header checks pass runs its own part. -/
theorem exec_of_checks (i : Instr) (hf : s.fault = false) (hc : headerCheck (headerOf i) s = none) :
    exec i s = .next (emit (ownPart i (s.loadHeader (headerOf i)))) := by
  rw [exec_eq_runCommand, runCommand_body _ _ hf hc]

/-! ## PUT -/

/-- Settles O23: PUT's probe ends at the given slot, and filling it writes that slot and LEN only. -/
theorem putFillsFirstEmptySlot : Obligations.PutFillsFirstEmptySlot := by
  intro tid value key s d hf hg hl hd hpass hempty p
  have hs : Serves s tid := ⟨hf, hg, hl, Nat.zero_lt_of_lt hd⟩
  have htable := afterPut_table hs.lt_ntab value key d
  refine ⟨_, exec_put_of_fits hs ⟨hd, hpass, hempty⟩ value, ?_⟩
  rw [htable]
  refine ⟨?_, fun i hi => ?_, ((State.live_iff s tid).1 hl).2, rfl, rfl, by rw [State.afterPut]; rfl⟩
  · exact (slotRead_fillAt _ _ _ _).trans (if_pos rfl)
  · exact (slotRead_fillAt _ _ _ _).trans (if_neg hi.symm)

/-- Settles O24: a probe that meets no empty slot makes the whole turn. -/
theorem putFailsAfterWholeTurn : Obligations.PutFailsAfterWholeTurn := by
  intro tid value key s hf hg hl hsize hpass
  rw [exec_put_of_full ⟨hf, hg, hl, hsize⟩ hpass value, State.afterFullPut]

/-- LEN = SIZE exactly when PUT's probe of any key meets no empty slot (R179), for any SLOT_DEPTH. -/
theorem len_eq_size_iff_insertPasses (hok : ContextOk s.slotDepth (s.table tid)) (hv : (s.table tid).valid = true)
    (key : Key) : (s.table tid).len = (s.table tid).size ↔ InsertPasses s tid key (s.table tid).size.toNat := by
  obtain ⟨-, -, hlen⟩ := hok.2 hv
  rw [insertPasses_size_iff, ← occupiedCount_eq_iff, ← hlen, BitVec.toNat_inj]

/-- Settles O25: the probe comes back to START exactly on a full table. -/
theorem putExhaustedExactlyWhenFull : Obligations.PutExhaustedExactlyWhenFull := by
  intro tid value key s hf hg hl hok
  have hv := ((State.live_iff s tid).1 hl).2
  have hs : Serves s tid := ⟨hf, hg, hl, (hok.2 hv).1⟩
  have hfull := len_eq_size_iff_insertPasses hok hv key
  obtain ⟨d, h⟩ | h := putFits_or_insertPasses s tid key hs.size_pos
  · refine ⟨_, exec_put_of_fits hs h value, fun heq => ?_, fun _ => statusBetween_afterPut s tid value key d⟩
    obtain ⟨b, hb⟩ := hfull.1 heq d h.lt
    exact absurd (h.empty.symm.trans hb) nofun
  · refine ⟨_, exec_put_of_full hs h value, fun _ => ⟨statusBetween_afterFullPut s tid value key, ?_,
      State.afterFullPut_tables s tid value key⟩, fun hne => absurd (hfull.2 h) hne⟩
    exact resultBetween_of_rsp (r := ⟨.capacityExhausted, 0#32, []⟩) (by simp [State.afterFullPut])

/-! ## GET and DEL -/

/-- Settles O26: GET's probe ends at the given place, and GET writes working registers only. -/
theorem getFollowsProbePath : Obligations.GetFollowsProbePath := by
  intro tid key s hf hg hl
  refine ⟨fun d hd hpass => ⟨fun b hb hcarries => ?_, fun hempty => ?_⟩, fun hsize hpass => ?_⟩
  · rw [exec_get_of_finds ⟨hf, hg, hl, Nat.zero_lt_of_lt hd⟩ ⟨hd, hpass, hb, hcarries⟩, State.afterGet]
  · rw [exec_get_of_misses ⟨hf, hg, hl, Nat.zero_lt_of_lt hd⟩ ⟨hd.le, hpass, fun _ => hempty⟩, State.afterGet]
  · rw [exec_get_of_misses ⟨hf, hg, hl, hsize⟩ ⟨le_rfl, hpass, fun h => absurd h (lt_irrefl _)⟩, State.afterGet]

/-- Settles O27: DEL's probe ends at the given place, and emptying its slot writes that slot and LEN only. -/
theorem delFollowsProbePath : Obligations.DelFollowsProbePath := by
  intro tid key s hf hg hl
  refine ⟨fun d hd hpass => ⟨fun b hb hcarries => ?_, fun hempty => ?_⟩, fun hsize hpass => ?_⟩
  · have hs : Serves s tid := ⟨hf, hg, hl, Nat.zero_lt_of_lt hd⟩
    refine ⟨_, exec_del_of_finds hs ⟨hd, hpass, hb, hcarries⟩, ?_⟩
    rw [afterDel_table hs.lt_ntab key d b]
    refine ⟨?_, fun i hi => ?_, ((State.live_iff s tid).1 hl).2, rfl, rfl, by rw [State.afterDel]; rfl⟩
    · exact (slotRead_emptyAt _ _ _).trans (if_pos rfl)
    · exact (slotRead_emptyAt _ _ _).trans (if_neg hi.symm)
  · rw [exec_del_of_misses ⟨hf, hg, hl, Nat.zero_lt_of_lt hd⟩ ⟨hd.le, hpass, fun _ => hempty⟩, State.afterMissedDel]
  · rw [exec_del_of_misses ⟨hf, hg, hl, hsize⟩ ⟨le_rfl, hpass, fun h => absurd h (lt_irrefl _)⟩, State.afterMissedDel]

/-! ## A table without a slot, which no reachable state has (log entry 14) -/

/-- A probe without a slot to look at has made its whole turn. -/
theorem runProbe_of_size_zero (hz : (s.table tid).size.toNat = 0) (stops : Option Bucket → Bool)
    (exit : Option (Option Bucket) → State → Result) : runProbe tid stops exit s = exit none s := by
  simp only [runProbe, hz, probeLoop]
  rfl

theorem headerCheck_of_live (hg : s.genDone = true) (hl : s.live tid = true) :
    (needGenerated s).or (needLive tid s) = none :=
  (needGenerated_or_needLive_eq_none tid s).2 ⟨hg, hl⟩

theorem exec_put_of_size_zero (hf : s.fault = false) (hg : s.genDone = true) (hl : s.live tid = true)
    (hz : (s.table tid).size.toNat = 0) (value : Word) (key : Key) :
    exec (.put tid value key) s =
      .next (((((s.loadHeader (.put tid)).loadArg value).hashKey key).startProbe tid).answer
        ⟨.capacityExhausted, 0#32, []⟩) := by
  have hbody : ownPart (.put tid value key) (s.loadHeader (.put tid)) =
      ((((s.loadHeader (.put tid)).loadArg value).hashKey key).startProbe tid, ⟨.capacityExhausted, 0#32, []⟩) :=
    runProbe_of_size_zero (s := (((s.loadHeader (.put tid)).loadArg value).hashKey key).startProbe tid) hz _ (putExit tid)
  rw [exec_of_checks (.put tid value key) hf (headerCheck_of_live hg hl), headerOf, hbody, emit_of_no_fault _ hf]

theorem exec_get_of_size_zero (hf : s.fault = false) (hg : s.genDone = true) (hl : s.live tid = true)
    (hz : (s.table tid).size.toNat = 0) (key : Key) :
    exec (.get tid key) s =
      .next ((((s.loadHeader (.get tid)).hashKey key).startProbe tid).answer ⟨.notFound, 0#32, []⟩) := by
  have hbody : ownPart (.get tid key) (s.loadHeader (.get tid)) =
      (((s.loadHeader (.get tid)).hashKey key).startProbe tid, ⟨.notFound, 0#32, []⟩) :=
    runProbe_of_size_zero (s := ((s.loadHeader (.get tid)).hashKey key).startProbe tid) hz _ getExit
  rw [exec_of_checks (.get tid key) hf (headerCheck_of_live hg hl), headerOf, hbody, emit_of_no_fault _ hf]

theorem exec_del_of_size_zero (hf : s.fault = false) (hg : s.genDone = true) (hl : s.live tid = true)
    (hz : (s.table tid).size.toNat = 0) (key : Key) :
    exec (.del tid key) s =
      .next ((((s.loadHeader (.del tid)).hashKey key).startProbe tid).answer ⟨.notFound, 0#32, []⟩) := by
  have hbody : ownPart (.del tid key) (s.loadHeader (.del tid)) =
      (((s.loadHeader (.del tid)).hashKey key).startProbe tid, ⟨.notFound, 0#32, []⟩) :=
    runProbe_of_size_zero (s := ((s.loadHeader (.del tid)).hashKey key).startProbe tid) hz _ (delExit tid)
  rw [exec_of_checks (.del tid key) hf (headerCheck_of_live hg hl), headerOf, hbody, emit_of_no_fault _ hf]

theorem lookupMisses_of_size_zero (hz : (s.table tid).size.toNat = 0) (key : Key) : LookupMisses s tid key 0 :=
  ⟨Nat.zero_le _, fun _ he => absurd he (Nat.not_lt_zero _), fun h => absurd (hz ▸ h) (lt_irrefl 0)⟩

/-! ## A key that is not there -/

/-- A GET that misses the key is NOT_FOUND and changes no architectural state, whatever SIZE is. -/
theorem get_misses (hf : s.fault = false) (hg : s.genDone = true) (hl : s.live tid = true)
    (h : LookupMisses s tid key d) :
    ∃ u, exec (.get tid key) s = .next u ∧ statusBetween s u = some 1#32 ∧ SameArch s u := by
  obtain hz | hpos := Nat.eq_zero_or_pos (s.table tid).size.toNat
  · exact ⟨_, exec_get_of_size_zero hf hg hl hz key, statusBetween_of_rsp (r := ⟨.notFound, 0#32, []⟩) rfl,
      by simp [SameArch]⟩
  · refine ⟨_, exec_get_of_misses ⟨hf, hg, hl, hpos⟩ h, statusBetween_of_rsp (State.afterGet_rsp s tid key d _), ?_⟩
    simp [SameArch, State.afterGet]

/-- A DEL that misses the key is NOT_FOUND and changes no architectural state, whatever SIZE is. -/
theorem del_misses (hf : s.fault = false) (hg : s.genDone = true) (hl : s.live tid = true)
    (h : LookupMisses s tid key d) :
    ∃ u, exec (.del tid key) s = .next u ∧ statusBetween s u = some 1#32 ∧ SameArch s u := by
  obtain hz | hpos := Nat.eq_zero_or_pos (s.table tid).size.toNat
  · exact ⟨_, exec_del_of_size_zero hf hg hl hz key, statusBetween_of_rsp (r := ⟨.notFound, 0#32, []⟩) rfl,
      by simp [SameArch]⟩
  · refine ⟨_, exec_del_of_misses ⟨hf, hg, hl, hpos⟩ h, statusBetween_afterMissedDel s tid key d, ?_⟩
    simp [SameArch, State.afterMissedDel]

/-- The key that a DEL was for is not on its probe path any more: its slot is empty, or it was not there. -/
theorem exists_lookupMisses_after_del (hf : s.fault = false) (hg : s.genDone = true) (hl : s.live tid = true)
    (ht : exec (.del tid key) s = .next t) :
    t.fault = false ∧ t.genDone = true ∧ t.live tid = true ∧ ∃ d, LookupMisses t tid key d := by
  have hmissed : ∀ {d}, LookupMisses s tid key d →
      t.fault = false ∧ t.genDone = true ∧ t.live tid = true ∧ ∃ d, LookupMisses t tid key d := fun {d} h => by
    obtain ⟨t', ht', -, hgen, hct, hfault, -, htables, -⟩ := del_misses hf hg hl h
    obtain rfl := Host.Outcome.next.inj (ht.symm.trans ht')
    have htable : t.table tid = s.table tid := by rw [State.table, State.table, htables]
    have hntab : t.ntab = s.ntab := by rw [State.ntab, State.ntab, htables]
    refine ⟨hfault.trans hf, hgen.trans hg, ?_, d, h.congr hct htable⟩
    rwa [State.live_iff, htable, hntab, ← State.live_iff]
  obtain hz | hpos := Nat.eq_zero_or_pos (s.table tid).size.toNat
  · exact hmissed (lookupMisses_of_size_zero hz key)
  · have hs : Serves s tid := ⟨hf, hg, hl, hpos⟩
    obtain ⟨d, b, h⟩ | ⟨d, h⟩ := lookupFinds_or_lookupMisses s tid key hpos
    · rw [exec_del_of_finds hs h] at ht
      obtain rfl := Host.Outcome.next.inj ht
      obtain ⟨hf', hg', hl', -⟩ := serves_afterDel hs key d b
      exact ⟨hf', hg', hl', d, (writesPath_afterDel hs h).misses_emptied h.lt h.passes rfl⟩
    · exact hmissed h

/-- Settles O29: after the DEL the key's probe misses it. -/
theorem getAfterDelIsNotFound : Obligations.GetAfterDelIsNotFound := by
  intro tid key s t hf hg hl ht
  obtain ⟨hf', hg', hl', d, h⟩ := exists_lookupMisses_after_del hf hg hl ht
  exact ⟨get_misses hf' hg' hl' h, del_misses hf' hg' hl' h⟩

/-! ## GET right after PUT -/

/-- A PUT that answers OK has filled the first empty slot of the path. -/
theorem exists_putFits_of_ok {value : Word} (hf : s.fault = false) (hg : s.genDone = true) (hl : s.live tid = true)
    (ht : exec (.put tid value key) s = .next t) (hok : statusBetween s t = some 0#32) :
    ∃ d, Serves s tid ∧ PutFits s tid key d ∧ t = s.afterPut tid value key d := by
  have hexhausted : statusBetween s t ≠ some 2#32 := fun h => absurd (hok.symm.trans h) (by decide)
  obtain hz | hpos := Nat.eq_zero_or_pos (s.table tid).size.toNat
  · rw [exec_put_of_size_zero hf hg hl hz] at ht
    obtain rfl := Host.Outcome.next.inj ht
    exact absurd (statusBetween_of_rsp (r := ⟨.capacityExhausted, 0#32, []⟩) rfl) hexhausted
  · have hs : Serves s tid := ⟨hf, hg, hl, hpos⟩
    obtain ⟨d, h⟩ | h := putFits_or_insertPasses s tid key hpos
    · rw [exec_put_of_fits hs h] at ht
      exact ⟨d, hs, h, (Host.Outcome.next.inj ht).symm⟩
    · rw [exec_put_of_full hs h] at ht
      obtain rfl := Host.Outcome.next.inj ht
      exact absurd (statusBetween_afterFullPut s tid value key) hexhausted

/-- Settles O28: the GET finds the first bucket with the pair, the new one or one before it. -/
theorem getAfterPut : Obligations.GetAfterPut := by
  intro tid value key s t hf hg hl ht hok
  obtain ⟨d, hs, h, rfl⟩ := exists_putFits_of_ok hf hg hl ht hok
  have hserves := serves_afterPut hs value key d
  have hpath := writesPath_afterPut hs h value
  obtain ⟨e, b, hfinds⟩ := exists_lookupFinds_afterPut hs h value
  have hu := exec_get_of_finds hserves hfinds
  refine ⟨d, _, h.passes, h.empty, hu, (get_answers_of_finds hserves hfinds hu).1, fun hpass => ?_,
    fun e' he' hpass b' hb' hcarries => ?_⟩
  · have hnew := hpath.finds_written h.lt hpass rfl (putBucket_carriesPair s value key)
    exact (get_answers_of_finds hserves hnew hu).2
  · have hold : LookupFinds s tid key e' b' := ⟨he'.trans h.lt, hpass, hb', hcarries⟩
    exact (get_answers_of_finds hserves (hpath.finds_before he' hold) hu).2

/-! ## GETINDEX (`spec/42_hashtable.md` R188) -/

theorem idxOutOfRange_iff (idx size : Word) : idxOutOfRange idx size = true ↔ size.toNat ≤ idx.toNat := by
  simp [idxOutOfRange, BitVec.le_def]

theorem getindexExit_response (tid : TableId) (s : State) :
    (getindexExit tid s).2 =
      if (s.table tid).size.toNat ≤ s.arg.toNat then ⟨.invalidIndex, 0#32, []⟩
      else
        match slotRead (s.table tid).slots s.arg.toNat with
        | none => ⟨.notFound, 0#32, []⟩
        | some b => ⟨.ok, b.value, []⟩ := by
  simp only [getindexExit, idxOutOfRange_iff]
  split
  · rfl
  · split <;> simp_all [okResponse]

/-- Settles O32: one check, one slot read. -/
theorem getindexReadsOneSlot : Obligations.GetindexReadsOneSlot := by
  intro tid idx s hf hl s1
  have hcheck : headerCheck (.getindex tid) s = none := (needLive_eq_none tid s).2 hl
  have hread : getindexExit tid s1 = (s1, (getindexExit tid s1).2) := Prod.ext (getindexExit_state tid s1) rfl
  have hbody : ownPart (.getindex tid idx) (s.loadHeader (.getindex tid)) = (s1, (getindexExit tid s1).2) := hread
  rw [exec_of_checks (.getindex tid idx) hf hcheck, headerOf, hbody, emit_of_no_fault _ hf, getindexExit_response]
  rfl

/-- GETINDEX of an occupied slot answers its value. -/
theorem getindex_of_occupied {idx : Word} {b : Bucket} (hf : s.fault = false) (hl : s.live tid = true)
    (hlt : idx.toNat < (s.table tid).size.toNat) (hb : slotRead (s.table tid).slots idx.toNat = some b) :
    ∃ u, exec (.getindex tid idx) s = .next u ∧ statusBetween s u = some 0#32 ∧ resultBetween s u = some b.value := by
  have hexec := getindexReadsOneSlot tid idx s hf hl
  simp only [if_neg (not_le.2 hlt), hb] at hexec
  exact ⟨_, hexec, statusBetween_of_rsp (r := okResponse b.value) rfl, resultBetween_of_rsp (r := okResponse b.value) rfl⟩

/-! ## Broken chains (`spec/70_reset_and_hazards.md` R291) -/

/-- A DEL that answers OK has emptied the slot of the first bucket with the key's pair. -/
theorem exists_lookupFinds_of_ok (hf : s.fault = false) (hg : s.genDone = true) (hl : s.live tid = true)
    (hpos : 0 < (s.table tid).size.toNat) (ht : exec (.del tid key) s = .next t) (hok : statusBetween s t = some 0#32) :
    ∃ d b, LookupFinds s tid key d b ∧ t = s.afterDel tid key d b := by
  have hs : Serves s tid := ⟨hf, hg, hl, hpos⟩
  obtain ⟨d, b, h⟩ | ⟨d, h⟩ := lookupFinds_or_lookupMisses s tid key hpos
  · rw [exec_del_of_finds hs h] at ht
    exact ⟨d, b, h, (Host.Outcome.next.inj ht).symm⟩
  · rw [exec_del_of_misses hs h] at ht
    obtain rfl := Host.Outcome.next.inj ht
    rw [statusBetween_afterMissedDel] at hok
    exact absurd hok (by decide)

/-- Settles O30: the one slot that the DEL emptied is the `e`-th of the key's path, so the key's probe stops there,
while the slot of its bucket still holds it. -/
theorem deletionBreaksProbeChains : Obligations.DeletionBreaksProbeChains := by
  intro tid key other s t d e b hf hg hl hd hpass hb _ hed ht hok hempty
  have hpos : 0 < (s.table tid).size.toNat := Nat.zero_lt_of_lt hd
  have hs : Serves s tid := ⟨hf, hg, hl, hpos⟩
  obtain ⟨d', b', hfinds, rfl⟩ := exists_lookupFinds_of_ok hf hg hl hpos ht hok
  have htable := afterDel_table hs.lt_ntab other d' b'
  have hsize : ((s.afterDel tid other d' b').table tid).size = (s.table tid).size := by
    rw [htable]
    rfl
  have hread : ∀ x, pathRecord (s.afterDel tid other d' b') tid key x =
      if pathPos (keyHash s.ct .id other) (s.table tid).size d' = pathPos (keyHash s.ct .id key) (s.table tid).size x
      then none else pathRecord s tid key x := fun x => by
    rw [pathRecord, hsize, State.afterDel_ct, htable]
    exact slotRead_emptyAt _ _ _
  have hslot : pathPos (keyHash s.ct .id other) (s.table tid).size d' =
      pathPos (keyHash s.ct .id key) (s.table tid).size e := by
    by_contra hne
    obtain ⟨b'', hb'', -⟩ := hpass e hed
    rw [hread, if_neg hne, hb''] at hempty
    cases hempty
  have hpath : WritesPath s (s.afterDel tid other d' b') tid key e none :=
    writesPath_of_slotWrite (hed.trans hd) (by simp) hsize (by rw [htable, ← hslot]; rfl)
  have hmiss := hpath.misses_emptied (hed.trans hd) (fun x hx => hpass x (hx.trans hed)) rfl
  obtain ⟨hf', hg', hl', -⟩ := serves_afterDel hs other d' b'
  obtain ⟨u, hu, hustatus, -⟩ := get_misses hf' hg' hl' hmiss
  obtain ⟨v, hv, hvstatus, -⟩ := del_misses hf' hg' hl' hmiss
  have hidx := cursorAt_pos (keyHash s.ct .id key) (s.table tid).size d hpos
  refine ⟨⟨u, hu, hustatus⟩, ⟨v, hv, hvstatus⟩, getindex_of_occupied hf' hl' ?_ ?_⟩
  · rw [hsize]
    exact hidx.trans_lt (pathPos_lt _ _ _ hpos)
  · have hkept := hread d
    rw [hslot, if_neg fun h => hed.ne (pathPos_inj (hed.trans hd) hd h), hb, pathRecord, hsize, State.afterDel_ct] at hkept
    exact (congrArg (slotRead _) hidx).trans hkept

end Sys2Proof.Machine
end

-- ==== How a command ends (`spec/60_exceptions.md` R240, `spec/30_encoding.md` R110) ====
section
namespace Sys2Proof.Machine

variable {i : Instr} {s t u : State} {tid : TableId}

/-! ## The three ends of a command's own part -/

/-- How a command run from `s` can end (R240): OK, with value words if it is RELEASE only; a result status, nothing
architectural changed; or the fault, raised over the architectural state of `s`. -/
inductive Ending (i : Instr) (s : State) : Result → Prop
  | ok (t : State) (res : Word) (hi : ∀ tid cb, i ≠ .release tid cb) (hf : t.fault = s.fault) :
      Ending i s (t, okResponse res)
  | released (t : State) (vals : List Word) (hi : ∃ tid cb, i = .release tid cb ∧ (cb = false → vals = []))
      (hf : t.fault = s.fault) : Ending i s (t, ⟨.ok, BitVec.ofNat 32 vals.length, vals⟩)
  | status (t : State) (st : Status) (res : Word) (hst : st ≠ .ok ∧ st ≠ .fault) (ht : SameArch s t) :
      Ending i s (t, ⟨st, res, []⟩)
  | raised (t : State) (c : Cause) (ht : SameArch s t) : Ending i s (raiseFault c t)

theorem sameArch_refl (s : State) : SameArch s s := ⟨rfl, rfl, rfl, rfl, rfl, rfl, rfl⟩

theorem generateBody_ending (s : State) : Ending .generate s (generateBody s) := by
  rw [generateBody]
  split
  · exact .ok _ _ nofun rfl
  · exact .ok _ _ nofun (by rw [runGeneration, State.setGenerated_fault, State.loadGen_fault])

theorem createBody_ending (tid : TableId) (size : Word) (s : State) :
    Ending (.create tid size) s (createBody tid size s) := by
  rw [createBody]
  split
  · exact .raised _ _ (sameArch_refl s)
  · exact .ok _ _ nofun (by simp [clearAll, clearEntry])

/-- Hashing the key and running the probe write working registers; the end is the exit's. -/
theorem runProbe_ending {exit : Option (Option Bucket) → State → Result}
    (hexit : ∀ found u, SameArch s u → Ending i s (exit found u)) (stops : Option Bucket → Bool) (tid : TableId)
    (key : Key) {v : State} (hv : SameArch s v) :
    Ending i s (runProbe tid stops exit ((v.hashKey key).startProbe tid)) := by
  refine hexit _ _ ?_
  simpa [SameArch] using hv

theorem putExit_ending (tid : TableId) (value : Word) (key : Key) (found : Option (Option Bucket))
    (hu : SameArch s u) : Ending (.put tid value key) s (putExit tid found u) := by
  obtain ⟨-, -, hf, -⟩ := id hu
  cases found with
  | none => exact .status _ _ _ (by decide) hu
  | some _ => exact .ok _ _ nofun (by simpa using hf)

theorem getExit_ending (tid : TableId) (key : Key) (found : Option (Option Bucket)) (hu : SameArch s u) :
    Ending (.get tid key) s (getExit found u) := by
  obtain ⟨-, -, hf, -⟩ := id hu
  obtain _ | _ | b := found
  · exact .status _ _ _ (by decide) hu
  · exact .status _ _ _ (by decide) hu
  · exact .ok _ _ nofun hf

theorem delExit_ending (tid : TableId) (key : Key) (found : Option (Option Bucket)) (hu : SameArch s u) :
    Ending (.del tid key) s (delExit tid found u) := by
  obtain ⟨-, -, hf, -⟩ := id hu
  obtain _ | _ | b := found
  · exact .status _ _ _ (by decide) hu
  · exact .status _ _ _ (by decide) hu
  · exact .ok _ _ nofun (by simpa using hf)

theorem getindexBody_ending (tid : TableId) (idx : Word) (s : State) :
    Ending (.getindex tid idx) s (getindexBody tid idx s) := by
  rw [getindexBody, getindexExit]
  split
  · exact .status _ _ _ (by decide) (sameArch_refl s)
  · split
    · exact .status _ _ _ (by decide) (sameArch_refl s)
    · exact .ok _ _ nofun rfl

theorem lenBody_ending (tid : TableId) (s : State) : Ending (.len tid) s (lenBody tid s) := by
  rw [lenBody]
  split
  · exact .ok _ _ nofun rfl
  · exact .status _ _ _ (by decide) (sameArch_refl s)

theorem releaseBody_ending (tid : TableId) (cb : Bool) (s : State) :
    Ending (.release tid cb) s (releaseBody tid cb s) :=
  .released _ _ ⟨tid, cb, rfl, by rintro rfl; rfl⟩ (by simp [releaseEntry])

theorem ownPart_ending (i : Instr) (s : State) : Ending i s (ownPart i s) := by
  cases i with
  | generate => exact generateBody_ending s
  | hash ch key => exact .ok _ _ nofun rfl
  | create tid size => exact createBody_ending tid size s
  | put tid value key =>
    exact runProbe_ending (fun _ _ => putExit_ending tid value key _) _ tid key (v := s.loadArg value) (sameArch_refl s)
  | get tid key => exact runProbe_ending (fun _ _ => getExit_ending tid key _) _ tid key (sameArch_refl s)
  | getindex tid idx => exact getindexBody_ending tid idx s
  | del tid key => exact runProbe_ending (fun _ _ => delExit_ending tid key _) _ tid key (sameArch_refl s)
  | len tid => exact lenBody_ending tid s
  | release tid cb => exact releaseBody_ending tid cb s

/-! ## What a command's own part leaves alone -/

/-- From `s` to `t` no context but that of the table `w` is written, and the parameters and the response history stand. -/
structure WritesOnly (w : Option TableId) (s t : State) : Prop where
  slotDepth : t.slotDepth = s.slotDepth
  ctHardwired : t.ctHardwired = s.ctHardwired
  rsp : t.rsp = s.rsp
  tables : t.tables = s.tables ∨ ∃ tid c, w = some tid ∧ t.tables = s.tables.set tid.toNat c

theorem WritesOnly.refl (w : Option TableId) (s : State) : WritesOnly w s s := ⟨rfl, rfl, rfl, .inl rfl⟩

theorem WritesOnly.tables_length {w : Option TableId} (h : WritesOnly w s t) : t.tables.length = s.tables.length := by
  obtain ht | ⟨_, _, -, ht⟩ := h.tables
  · rw [ht]
  · rw [ht, List.length_set]

theorem generateBody_writesOnly (w : Option TableId) (s : State) : WritesOnly w s (generateBody s).1 := by
  have hload : ∀ x, WritesOnly w s ((s.loadGen x).setGenerated) := fun _ =>
    ⟨by simp, by simp, by simp, .inl (by simp)⟩
  rw [generateBody]
  split
  · exact .refl w s
  · exact hload _

theorem createBody_writesOnly (tid : TableId) (size : Word) (s : State) :
    WritesOnly (some tid) s (createBody tid size s).1 := by
  rw [createBody]
  split
  · exact ⟨rfl, rfl, rfl, .inl rfl⟩
  · have htables : (createExit tid (clearAll tid (clearEntry tid (s.loadArg size)))).1.tables =
        s.tables.set tid.toNat { (clearAll tid (clearEntry tid (s.loadArg size))).table tid with valid := true } := by
      simp only [createExit, clearAll, clearEntry, State.setTable_tables, State.loadPos_tables, State.loadArg_tables,
        List.set_set]
    refine ⟨?_, ?_, ?_, .inr ⟨tid, _, rfl, htables⟩⟩
    all_goals simp [createExit, clearAll, clearEntry]

theorem putExit_writesOnly (tid : TableId) (found : Option (Option Bucket)) (s : State) :
    WritesOnly (some tid) s (putExit tid found s).1 := by
  cases found with
  | none => exact .refl _ s
  | some _ => exact ⟨rfl, rfl, rfl, .inr ⟨tid, _, rfl, rfl⟩⟩

theorem delExit_writesOnly (tid : TableId) (found : Option (Option Bucket)) (s : State) :
    WritesOnly (some tid) s (delExit tid found s).1 := by
  obtain _ | _ | b := found
  · exact .refl _ s
  · exact .refl _ s
  · exact ⟨rfl, rfl, rfl, .inr ⟨tid, _, rfl, rfl⟩⟩

theorem releaseBody_tables (tid : TableId) (cb : Bool) (s : State) :
    (releaseBody tid cb s).1.tables = s.tables.set tid.toNat (releasedContext s.choices tid) := by
  rw [releaseBody, releaseExit, State.nextChoice_tables, State.loadVals_tables, State.setTable_tables]
  simp [releaseEntry]

theorem releaseBody_writesOnly (tid : TableId) (cb : Bool) (s : State) :
    WritesOnly (some tid) s (releaseBody tid cb s).1 := by
  refine ⟨?_, ?_, releaseBody_rsp tid cb s, .inr ⟨tid, _, rfl, releaseBody_tables tid cb s⟩⟩
  all_goals simp [releaseBody, releaseExit, releaseEntry]

theorem runProbe_writesOnly {w : Option TableId} {exit : Option (Option Bucket) → State → Result}
    (hexit : ∀ found s, WritesOnly w s (exit found s).1) (stops : Option Bucket → Bool) (tid : TableId) (key : Key)
    (s : State) : WritesOnly w s (runProbe tid stops exit ((s.hashKey key).startProbe tid)).1 := by
  obtain ⟨hdepth, hrom, hrsp, htables⟩ := hexit _ _
  exact ⟨hdepth, hrom, hrsp, htables⟩

theorem ownPart_writesOnly (i : Instr) (s : State) : WritesOnly i.table? s (ownPart i s).1 := by
  cases i with
  | generate => exact generateBody_writesOnly none s
  | hash ch key => exact ⟨rfl, rfl, rfl, .inl rfl⟩
  | create tid size => exact createBody_writesOnly tid size s
  | put tid value key =>
    obtain ⟨hdepth, hrom, hrsp, htables⟩ :=
      runProbe_writesOnly (putExit_writesOnly tid) stopsPut tid key (s.loadArg value)
    exact ⟨hdepth, hrom, hrsp, htables⟩
  | get tid key =>
    have hexit : ∀ found u, WritesOnly (some tid) u (getExit found u).1 := fun found u => by
      rw [getExit_state]
      exact .refl _ u
    exact runProbe_writesOnly hexit _ tid key s
  | getindex tid idx =>
    rw [ownPart, getindexBody, getindexExit_state]
    exact ⟨rfl, rfl, rfl, .inl rfl⟩
  | del tid key => exact runProbe_writesOnly (delExit_writesOnly tid) _ tid key s
  | len tid =>
    rw [ownPart, lenBody_state]
    exact .refl _ s
  | release tid cb => exact releaseBody_writesOnly tid cb s

/-- Everything a command can do that ends in a next state: it sends one response, in one of the three ways. -/
theorem exec_ending (ht : exec i s = .next t) :
    s.fault = false ∧ ∃ r, t = emit r ∧ Ending i s r ∧ WritesOnly i.table? s r.1 := by
  rw [exec_eq_runCommand] at ht
  obtain ⟨hf, ⟨c, -, rfl⟩ | ⟨-, rfl⟩⟩ := runCommand_next ht
  · exact ⟨hf, _, (emit_raiseFault c _).symm, .raised _ c (sameArch_refl s), rfl, rfl, rfl, .inl rfl⟩
  · obtain ⟨hdepth, hrom, hrsp, htables⟩ := ownPart_writesOnly i (s.loadHeader (headerOf i))
    refine ⟨hf, _, rfl, ?_, hdepth, hrom, hrsp, htables⟩
    have hend := ownPart_ending i (s.loadHeader (headerOf i))
    generalize ownPart i (s.loadHeader (headerOf i)) = r at hend ⊢
    cases hend with
    | ok t res hi hf => exact .ok t res hi hf
    | released t vals hi hf => exact .released t vals hi hf
    | status t st res hst ht => exact .status t st res hst ht
    | raised t c ht => exact .raised t c ht

/-! ## The statements -/

theorem statusCode_of_result {st : Status} (h : st ≠ .ok ∧ st ≠ .fault) : statusCode st ∈ [1#32, 2#32, 3#32, 4#32] := by
  revert st; intro st; cases st <;> decide

/-- Settles O42: the three ends, with the phase that `emit` gives each. -/
theorem commandsEndInThreeWays : Obligations.CommandsEndInThreeWays := by
  intro i s t hf ht
  obtain ⟨-, r, rfl, hend, hw⟩ := exec_ending ht
  have hstatus : statusBetween s (emit r) = some (statusCode r.2.status) :=
    statusBetween_of_rsp (by rw [emit_rsp, hw.rsp])
  have hphase : (emit r).phase = if r.1.fault then .dead else .idle := rfl
  cases hend with
  | ok t res hi hft => exact .inl ⟨hstatus, hft.trans hf, by rw [hphase, hft, hf]; rfl⟩
  | released t vals hi hft => exact .inl ⟨hstatus, hft.trans hf, by rw [hphase, hft, hf]; rfl⟩
  | status t st res hst harch =>
    obtain ⟨-, -, hft, -⟩ := id harch
    exact .inr (.inl ⟨⟨_, statusCode_of_result hst, hstatus⟩, harch, by rw [hphase, hft, hf]; rfl⟩)
  | raised t c harch => exact .inr (.inr ⟨hstatus, rfl, rfl, step_of_dead rfl⟩)

theorem statusCode_le_five (st : Status) : (statusCode st).toNat ≤ 5 := by
  cases st <;> decide

/-- Settles O43: one response packet in each of the ends, value words in RELEASE's only. -/
theorem everyCommandSendsOneResponse : Obligations.EveryCommandSendsOneResponse := by
  intro i s t ht
  obtain ⟨-, r, rfl, hend, hw⟩ := exec_ending ht
  refine ⟨statusCode r.2.status, r.2.result, r.2.values, ?_, statusCode_le_five _, rfl, ?_⟩
  · rw [emit_rsp, hw.rsp, Response.bytes, List.append_assoc, List.append_assoc, List.append_assoc]
  cases hend with
  | ok t res hi hft => exact ⟨fun h => absurd rfl h, fun tid cb h => absurd h (hi tid cb), fun h => absurd rfl h⟩
  | released t vals hi hft =>
    obtain ⟨tid, cb, rfl, hcb⟩ := hi
    refine ⟨fun h => ⟨tid, ?_⟩, fun _ _ _ _ => rfl, fun h => absurd rfl h⟩
    cases cb with
    | true => rfl
    | false => exact absurd (hcb rfl) h
  | status t st res hst harch =>
    refine ⟨fun h => absurd rfl h, fun _ _ _ h => ?_, fun _ => rfl⟩
    have hmem := statusCode_of_result hst
    rw [h] at hmem
    exact absurd hmem (by decide)
  | raised t c harch => exact ⟨fun h => absurd rfl h, fun _ _ _ h => absurd h (by decide : (5#32 : Word) ≠ 0#32), fun _ => rfl⟩

/-- Settles O46: the one context written is the one the command names. -/
theorem otherTablesUntouched : Obligations.OtherTablesUntouched := by
  intro i s t k ht hk
  obtain ⟨-, r, rfl, -, hw⟩ := exec_ending ht
  rw [emit_tables]
  obtain htables | ⟨tid, c, htid, htables⟩ := hw.tables
  · rw [htables]
  · rw [htables, List.getElem?_set_ne (hk tid htid)]

/-! ## Only GENERATE writes CT (`spec/10_state.md` R25, R37) -/

/-- The table, its flag and the generation registers are the same. -/
def SameTable (s t : State) : Prop := t.ct = s.ct ∧ t.genDone = s.genDone ∧ t.gen = s.gen

theorem runProbe_sameTable {exit : Option (Option Bucket) → State → Result}
    (hexit : ∀ found s, SameTable s (exit found s).1) (stops : Option Bucket → Bool) (tid : TableId) (key : Key)
    (s : State) : SameTable s (runProbe tid stops exit ((s.hashKey key).startProbe tid)).1 :=
  hexit _ _

theorem createBody_sameTable (tid : TableId) (size : Word) (s : State) : SameTable s (createBody tid size s).1 := by
  rw [createBody]
  split
  · exact ⟨rfl, rfl, rfl⟩
  · simp [SameTable, createExit, clearAll, clearEntry]

theorem putExit_sameTable (tid : TableId) (found : Option (Option Bucket)) (s : State) :
    SameTable s (putExit tid found s).1 := by
  cases found <;> exact ⟨rfl, rfl, rfl⟩

theorem delExit_sameTable (tid : TableId) (found : Option (Option Bucket)) (s : State) :
    SameTable s (delExit tid found s).1 := by
  obtain _ | _ | _ := found <;> exact ⟨rfl, rfl, rfl⟩

theorem releaseBody_sameTable (tid : TableId) (cb : Bool) (s : State) : SameTable s (releaseBody tid cb s).1 := by
  simp [SameTable, releaseBody, releaseExit, releaseEntry]

theorem ownPart_sameTable (hi : i ≠ .generate ∨ s.genDone = true) : SameTable s (ownPart i s).1 := by
  cases i with
  | generate =>
    obtain h | hg := hi
    · exact absurd rfl h
    · rw [ownPart, generateBody, if_pos hg]
      exact ⟨rfl, rfl, rfl⟩
  | hash ch key => exact ⟨rfl, rfl, rfl⟩
  | create tid size => exact createBody_sameTable tid size s
  | put tid value key => exact runProbe_sameTable (putExit_sameTable tid) _ tid key (s.loadArg value)
  | get tid key =>
    exact runProbe_sameTable (fun found u => by rw [getExit_state]; exact ⟨rfl, rfl, rfl⟩) _ tid key s
  | getindex tid idx => rw [ownPart, getindexBody, getindexExit_state]; exact ⟨rfl, rfl, rfl⟩
  | del tid key => exact runProbe_sameTable (delExit_sameTable tid) _ tid key s
  | len tid => rw [ownPart, lenBody_state]; exact ⟨rfl, rfl, rfl⟩
  | release tid cb => exact releaseBody_sameTable tid cb s

/-- Settles O47: no other own part writes them, nor does the fault. -/
theorem ctWrittenOnlyByFirstGenerate : Obligations.CtWrittenOnlyByFirstGenerate := by
  intro i s t ht hi
  rw [exec_eq_runCommand] at ht
  obtain ⟨-, ⟨c, -, rfl⟩ | ⟨-, rfl⟩⟩ := runCommand_next ht
  · exact ⟨rfl, rfl, rfl⟩
  · exact ownPart_sameTable (s := s.loadHeader (headerOf i)) hi

end Sys2Proof.Machine
end

-- ==== CREATE, LEN and RELEASE (`spec/42_hashtable.md` R172, R195, R200 to R202) ====
section
namespace Sys2Proof.Machine

variable {s t : State} {tid : TableId}

/-! ## CREATE -/

theorem State.setTable_setTable (s : State) (tid : TableId) (c c' : Context) :
    (s.setTable tid c).setTable tid c' = s.setTable tid c' := by
  rw [State.setTable, State.setTable, List.set_set]
  rfl

theorem State.setTable_loadPos (s : State) (tid : TableId) (c : Context) (pos : Word) :
    (s.setTable tid c).loadPos pos = (s.loadPos pos).setTable tid c := rfl

theorem State.loadPos_loadPos (s : State) (pos pos' : Word) : (s.loadPos pos).loadPos pos' = s.loadPos pos' := rfl

/-- CREATE with a legal size, its scan over: the context is written whole, ARG and POS hold the size. -/
theorem createBody_eq (hlt : tid.toNat < s.ntab) {size : Word} (hsize : sizeCheck s.slotDepth size = none) :
    createBody tid size s =
      (((s.loadArg size).loadPos size).setTable tid ((s.table tid).created size), okResponse (tidWord tid)) := by
  have hentry : (clearEntry tid (s.loadArg size)).table tid = { s.table tid with size := size, len := 0#32 } :=
    clearEntry_table (s := s.loadArg size) hlt
  have hclear := clearAll_table (s := clearEntry tid (s.loadArg size)) (tid := tid) (by simpa [clearEntry] using hlt)
  have hbody : createBody tid size s = createExit tid (clearAll tid (clearEntry tid (s.loadArg size))) := by
    simp only [createBody, State.loadArg_slotDepth, hsize]
  rw [hbody, createExit, hclear, clearAll, hentry]
  simp only [clearEntry, State.setTable_loadPos, State.loadPos_loadPos, State.setTable_setTable]
  rfl

theorem exec_create_of_free (hf : s.fault = false) (hlt : tid.toNat < s.ntab) (hfree : (s.table tid).valid = false)
    {size : Word} (hsize : sizeCheck s.slotDepth size = none) :
    exec (.create tid size) s =
      .next (((((s.loadHeader (.create tid)).loadArg size).loadPos size).setTable tid
        ((s.table tid).created size)).answer (okResponse (tidWord tid))) := by
  have hbody : ownPart (.create tid size) (s.loadHeader (.create tid)) = _ :=
    createBody_eq (s := s.loadHeader (.create tid)) hlt hsize
  rw [exec_of_checks (.create tid size) hf ((needFree_eq_none tid s).2 ⟨hlt, hfree⟩), headerOf, hbody,
    emit_of_no_fault _ hf]
  rfl

/-- Settles O21: the context as CREATE leaves it, read slot by slot. -/
theorem createMakesEmptyTable : Obligations.CreateMakesEmptyTable := by
  intro tid size s hf hlt hfree hne hmsb hle
  have hread : ∀ i, slotRead ((s.table tid).created size).slots i = _ := slotRead_clearBelow _ _
  have htable : (((((s.loadHeader (.create tid)).loadArg size).loadPos size).setTable tid
      ((s.table tid).created size)).answer (okResponse (tidWord tid))).table tid = (s.table tid).created size :=
    State.setTable_table_same _ tid _ hlt
  refine ⟨_, exec_create_of_free hf hlt hfree ((sizeCheck_eq_none _ _).2 ⟨hne, hmsb, hle⟩), ?_⟩
  rw [htable]
  exact ⟨rfl, rfl, rfl, fun i hi => (hread i).trans (if_pos hi), fun i hi => (hread i).trans (if_neg (not_lt.2 hi)), rfl⟩

/-! ## LEN -/

/-- Settles O33: a live reference answers its LEN, any other the sentinel. -/
theorem lenAnswersCountOrBadTable : Obligations.LenAnswersCountOrBadTable := by
  intro tid s hf
  by_cases hl : s.live tid = true
  · rw [exec_len_of_live hf hl, if_pos ((State.live_iff s tid).1 hl)]
    rfl
  · have hbody : ownPart (.len tid) (s.loadHeader (.len tid)) =
        (s.loadHeader (.len tid), ⟨.badTable, Config.lenSentinel, []⟩) := if_neg hl
    rw [exec_of_checks (.len tid) hf rfl, headerOf, hbody, emit_of_no_fault _ hf,
      if_neg (mt (State.live_iff s tid).2 hl)]
    rfl

/-! ## RELEASE -/

/-- The values RELEASE sends: those of the occupied slots in its free order, or none without `cb`. -/
def releasedValues (s : State) (tid : TableId) (cb : Bool) : List Word :=
  let queued := if cb then occupiedValues (s.table tid).slots (s.table tid).size.toNat else []
  permuteBy (Config.releasePick s.choices) queued.length 0 queued

theorem releasedValues_perm (s : State) (tid : TableId) (cb : Bool) :
    (releasedValues s tid cb).Perm (if cb then occupiedValues (s.table tid).slots (s.table tid).size.toNat else []) :=
  permuteBy_perm _ _ _ _

theorem releaseBody_eq (tid : TableId) (cb : Bool) (s : State) :
    releaseBody tid cb s =
      ((((s.loadPos (s.table tid).size).loadVals []).nextChoice).setTable tid (releasedContext s.choices tid),
        ⟨.ok, BitVec.ofNat 32 (releasedValues s tid cb).length, releasedValues s tid cb⟩) := by
  simp only [releaseBody, releaseExit, releaseEntry, releasedValues, State.loadVals_vals, State.loadVals_choices,
    State.loadPos_choices]
  rfl

/-- The state after RELEASE. -/
@[irreducible] def State.afterRelease (s : State) (tid : TableId) (cb : Bool) : State :=
  (((((s.loadHeader (.release tid cb)).loadPos (s.table tid).size).loadVals []).nextChoice).setTable tid
    (releasedContext s.choices tid)).answer
      ⟨.ok, BitVec.ofNat 32 (releasedValues s tid cb).length, releasedValues s tid cb⟩

theorem exec_release_of_live (hf : s.fault = false) (hl : s.live tid = true) (cb : Bool) :
    exec (.release tid cb) s = .next (s.afterRelease tid cb) := by
  have hbody : ownPart (.release tid cb) (s.loadHeader (.release tid cb)) = _ := releaseBody_eq tid cb _
  have hvals : releasedValues (s.loadHeader (.release tid cb)) tid cb = releasedValues s tid cb := rfl
  rw [exec_of_checks (.release tid cb) hf ((needLive_eq_none tid s).2 hl), headerOf, hbody,
    emit_of_no_fault _ (by simpa using hf), hvals, State.loadHeader_table, State.loadHeader_choices, State.afterRelease]

theorem afterRelease_table (hl : s.live tid = true) (cb : Bool) :
    (s.afterRelease tid cb).table tid = releasedContext s.choices tid := by
  obtain ⟨hlt, -⟩ := (State.live_iff s tid).1 hl
  rw [State.afterRelease, State.answer_table, State.setTable_table_same _ tid _ (by simpa using hlt)]

@[simp] theorem afterRelease_ntab (s : State) (tid : TableId) (cb : Bool) : (s.afterRelease tid cb).ntab = s.ntab := by
  simp [State.afterRelease]

@[simp] theorem afterRelease_fault (s : State) (tid : TableId) (cb : Bool) : (s.afterRelease tid cb).fault = s.fault := by
  simp [State.afterRelease]

@[simp] theorem afterRelease_genDone (s : State) (tid : TableId) (cb : Bool) :
    (s.afterRelease tid cb).genDone = s.genDone := by
  simp [State.afterRelease]

@[simp] theorem afterRelease_slotDepth (s : State) (tid : TableId) (cb : Bool) :
    (s.afterRelease tid cb).slotDepth = s.slotDepth := by
  simp [State.afterRelease]

theorem afterRelease_rsp (s : State) (tid : TableId) (cb : Bool) :
    (s.afterRelease tid cb).rsp = s.rsp ++
      (⟨.ok, BitVec.ofNat 32 (releasedValues s tid cb).length, releasedValues s tid cb⟩ : Response).bytes := by
  simp [State.afterRelease]

/-- Settles O34: RELEASE's next state, its values a permutation of the occupied slots'. -/
theorem releaseHandsBackValues : Obligations.ReleaseHandsBackValues := by
  intro tid cb s hf hl
  have htable := afterRelease_table hl cb
  refine ⟨_, _, exec_release_of_live hf hl cb, releasedValues_perm s tid cb, by rw [htable]; rfl, ?_⟩
  rw [htable, State.afterRelease]
  rfl

theorem occupiedValues_length (m : Memory Bucket) (n : Nat) : (occupiedValues m n).length = occupiedCount m n := by
  rw [occupiedValues, List.length_map, List.length_filterMap_eq_countP, occupiedCount]

/-- Settles O35: as many values as occupied slots, which LEN counts. -/
theorem releaseCountIsLen : Obligations.ReleaseCountIsLen := by
  intro tid cb s hf hl hok
  obtain ⟨-, -, hlen⟩ := hok.2 ((State.live_iff s tid).1 hl).2
  have hcount : BitVec.ofNat 32 (releasedValues s tid cb).length = if cb = true then (s.table tid).len else 0#32 := by
    rw [(releasedValues_perm s tid cb).length_eq]
    cases cb with
    | false => rfl
    | true =>
      rw [if_pos rfl, if_pos rfl, occupiedValues_length, ← hlen, BitVec.ofNat_toNat, BitVec.setWidth_eq]
  rw [← hcount]
  have hrsp := afterRelease_rsp s tid cb
  exact ⟨_, exec_release_of_live hf hl cb, statusBetween_of_rsp hrsp, resultBetween_of_rsp hrsp⟩

/-! ## The free order (`spec/42_hashtable.md` R201, log entry 4) -/

/-- The picks before the first place used play no part. -/
theorem permuteBy_congr {α : Type} {pick pick' : Nat → Nat} (fuel k : Nat) (l : List α)
    (h : ∀ j, k ≤ j → pick j = pick' j) : permuteBy pick fuel k l = permuteBy pick' fuel k l := by
  induction fuel generalizing k l with
  | zero => rfl
  | succ fuel ih =>
    match l with
    | [] => rfl
    | [x] => rfl
    | x :: y :: l =>
      simp only [permuteBy, h k le_rfl]
      rw [ih (k + 1) _ fun j hj => h j (Nat.le_of_succ_le hj)]

/-- Every permutation of a list is picked out, from whatever place the picks are counted. -/
theorem exists_pick {α : Type} (out : List α) (k : Nat) {l : List α} (h : l.Perm out) :
    ∃ pick, permuteBy pick out.length k l = out := by
  classical
  induction out generalizing k l with
  | nil => exact ⟨fun _ => 0, by rw [h.eq_nil]; rfl⟩
  | cons o out ih =>
    match l with
    | [] => cases h.symm.eq_nil
    | [x] => exact ⟨fun _ => 0, by rw [List.perm_singleton.1 h.symm]; rfl⟩
    | x :: y :: l =>
      obtain ⟨n, hn, ho⟩ := List.getElem_of_mem (h.mem_iff.2 (List.mem_cons_self (a := o)))
      have hrest : ((x :: y :: l).eraseIdx n).Perm out := by
        have hperm := (List.getElem_cons_eraseIdx_perm hn).trans h
        rw [ho] at hperm
        exact hperm.cons_inv
      obtain ⟨pick, hpick⟩ := ih (k + 1) hrest
      refine ⟨fun j => if j = k then n else pick j, ?_⟩
      have hskip : ∀ j, k + 1 ≤ j → (if j = k then n else pick j) = pick j := fun j hj => if_neg (by omega)
      simp only [List.length_cons (a := o), permuteBy, if_true]
      rw [Nat.mod_eq_of_lt hn, permuteBy_congr _ _ _ hskip, hpick, List.getD_eq_getElem _ _ hn, ho]

/-- Settles O36: the place of each value of the order is picked one after the other. -/
theorem everyReleaseOrderIsAllowed : Obligations.EveryReleaseOrderIsAllowed := fun _ out h =>
  h.length_eq ▸ exists_pick out 0 h

/-! ## A released table (`spec/42_hashtable.md` R202) -/

theorem exec_of_check_fails (i : Instr) (hf : s.fault = false) {c : Cause} (hc : headerCheck (headerOf i) s = some c) :
    exec i s = .next ((s.loadHeader (headerOf i)).die c) := by
  rw [exec_eq_runCommand, runCommand_check _ _ hf hc]

/-- Settles O37: RELEASE leaves VALID 0, on which every later reference check turns. -/
theorem releasedTableIsNoReference : Obligations.ReleasedTableIsNoReference := by
  intro tid cb s t hf hl ht
  obtain rfl := Host.Outcome.next.inj ((exec_release_of_live hf hl cb).symm.trans ht)
  obtain ⟨hlt, -⟩ := (State.live_iff s tid).1 hl
  have hvalid : ((s.afterRelease tid cb).table tid).valid = false := by rw [afterRelease_table hl]; rfl
  have hf' : (s.afterRelease tid cb).fault = false := by rw [afterRelease_fault, hf]
  have hlt' : tid.toNat < (s.afterRelease tid cb).ntab := by rwa [afterRelease_ntab]
  have hdepth : (s.afterRelease tid cb).slotDepth = s.slotDepth := afterRelease_slotDepth s tid cb
  have hgen : s.genDone = true → needGenerated (s.afterRelease tid cb) = none := fun hg =>
    (needGenerated_eq_none _).2 (by rw [afterRelease_genDone, hg])
  generalize s.afterRelease tid cb = t at hvalid hf' hlt' hdepth hgen
  have hbad : needLive tid t = some .badTable := if_neg (by simp [State.live, hvalid])
  refine ⟨fun value idx key cb' i hi hg => exec_of_check_fails i hf' ?_, ?_, fun size hne hmsb hle => ?_⟩
  · simp only [List.mem_cons, List.not_mem_nil, or_false] at hi
    obtain rfl | rfl | rfl | rfl | rfl := hi
    case inr.inr.inl | inr.inr.inr.inr => exact hbad
    all_goals
      have hgd := hgen (hg.resolve_right (by simp [headerOf, Header.hasKey]))
      simp [headerCheck, headerOf, hgd, hbad]
  · have hlen := lenAnswersCountOrBadTable tid t hf'
    rw [if_neg (by simp [hvalid])] at hlen
    exact ⟨_, hlen, hf', statusBetween_of_rsp (r := ⟨.badTable, 0xFFFFFFFF#32, []⟩) rfl,
      resultBetween_of_rsp (r := ⟨.badTable, 0xFFFFFFFF#32, []⟩) rfl⟩
  · have hexec := exec_create_of_free hf' hlt' hvalid (size := size) ((sizeCheck_eq_none _ _).2 ⟨hne, hmsb, hdepth ▸ hle⟩)
    have htable := State.setTable_table_same (((t.loadHeader (.create tid)).loadArg size).loadPos size) tid
      ((t.table tid).created size) (by simpa using hlt')
    refine ⟨_, hexec, by simpa using hf', (State.live_iff _ tid).2 ⟨by simpa using hlt', ?_⟩⟩
    rw [State.answer_table, htable]
    rfl

end Sys2Proof.Machine
end

-- ==== Which fault a command raises (`spec/60_exceptions.md` R255) ====
section
namespace Sys2Proof.Machine

variable {i : Instr} {s t : State} {tid : TableId} {c : Cause}

/-! ## The first check that fails -/

/-- The check of a command's operand: CREATE's size (R255, point 4). -/
def operandCheck (i : Instr) (s : State) : Option Cause :=
  match i with
  | .create _ size => sizeCheck s.slotDepth size
  | _ => none

/-- The cause of the first check that fails (R255). -/
def faultCause (i : Instr) (s : State) : Option Cause := (headerCheck (headerOf i) s).or (operandCheck i s)

theorem faultCause_of_no_operand (h : operandCheck i s = none) : faultCause i s = headerCheck (headerOf i) s := by
  rw [faultCause, h, Option.or_none]

/-- With no check left to fail, a command's own part leaves FAULT alone. -/
theorem ownPart_fault (h : operandCheck i s = none) : (ownPart i s).1.fault = s.fault := by
  cases i with
  | generate => exact generateBody_fault s
  | hash ch key => exact State.loadLanes_fault s _
  | create tid size =>
    have hsize : sizeCheck s.slotDepth size = none := h
    simp only [ownPart, createBody, State.loadArg_slotDepth, hsize]
    simp [createExit, clearAll, clearEntry]
  | put tid value key => exact runProbe_fault (putExit_fault tid) _ tid key (s.loadArg value)
  | get tid key => exact runProbe_fault (fun found s => by rw [getExit_state]) _ tid key s
  | getindex tid idx => rw [ownPart, getindexBody, getindexExit_state, State.loadArg_fault]
  | del tid key => exact runProbe_fault (delExit_fault tid) _ tid key s
  | len tid => rw [ownPart, lenBody_state]
  | release tid cb => exact releaseBody_fault tid cb s

theorem exec_of_faultCause_none (hf : s.fault = false) (h : faultCause i s = none) :
    ∃ t, exec i s = .next t ∧ t.fault = false := by
  obtain ⟨hheader, hoperand⟩ := Option.or_eq_none_iff.1 h
  have hkeeps := ownPart_fault (i := i) (s := s.loadHeader (headerOf i)) hoperand
  exact ⟨_, exec_of_checks i hf hheader, by rw [emit_fault, hkeeps, State.loadHeader_fault, hf]⟩

/-- The operand check comes after the header checks; its operand is in ARG by then. -/
theorem exec_of_faultCause_some (hf : s.fault = false) (h : faultCause i s = some c) :
    ∃ a, exec i s = .next (((s.loadHeader (headerOf i)).loadArg a).die c) := by
  cases hheader : headerCheck (headerOf i) s with
  | some c' =>
    obtain rfl : c' = c := by simpa [faultCause, hheader] using h
    exact ⟨s.arg, exec_of_check_fails i hf hheader⟩
  | none =>
    have hoperand : operandCheck i s = some c := by simpa [faultCause, hheader] using h
    cases i with
    | create tid size =>
      obtain ⟨hlt, hfree⟩ := (needFree_eq_none tid s).1 hheader
      exact ⟨size, exec_create_of_size_fault hf hlt hfree hoperand⟩
    | _ => cases hoperand

/-! ## Each check by what it asks -/

theorem needGenerated_eq_some_iff : needGenerated s = some c ↔ s.genDone = false ∧ c = .notGenerated := by
  cases hg : s.genDone with
  | true => simp [needGenerated, hg]
  | false => simpa [needGenerated, hg] using eq_comm

theorem needLive_eq_some_iff :
    needLive tid s = some c ↔ (s.ntab ≤ tid.toNat ∨ (s.table tid).valid = false) ∧ c = .badTable := by
  have hlive : s.live tid = true ↔ ¬ (s.ntab ≤ tid.toNat ∨ (s.table tid).valid = false) := by
    simp [State.live_iff]
  by_cases hl : s.live tid = true
  · exact iff_of_false (by simp [needLive, hl]) fun h => hlive.1 hl h.1
  · simpa [needLive, hl, not_not.1 (mt hlive.2 hl)] using eq_comm

theorem needGenerated_or_needLive_eq_some_iff :
    (needGenerated s).or (needLive tid s) = some c ↔
      (s.genDone = false ∧ c = .notGenerated) ∨
        (s.genDone = true ∧ (s.ntab ≤ tid.toNat ∨ (s.table tid).valid = false) ∧ c = .badTable) := by
  rw [Option.or_eq_some_iff, needGenerated_eq_some_iff, needGenerated_eq_none, needLive_eq_some_iff]

theorem needFree_eq_some_iff :
    needFree tid s = some c ↔
      (s.ntab ≤ tid.toNat ∧ c = .badTable) ∨
        (tid.toNat < s.ntab ∧ (s.table tid).valid = true ∧ c = .tableLive) := by
  obtain hlt | hge := lt_or_ge tid.toNat s.ntab
  · cases hv : (s.table tid).valid with
    | true => simpa [needFree, hlt, hlt.not_ge, hv] using eq_comm
    | false => simp [needFree, hlt, hlt.not_ge, hv]
  · simpa [needFree, hge, hge.not_gt] using eq_comm

theorem sizeCheck_eq_some_iff (depth : Nat) (a : Word) :
    sizeCheck depth a = some c ↔
      ((a = 0#32 ∨ a.msb = true) ∧ c = .size) ∨ (¬ (a = 0#32 ∨ a.msb = true) ∧ depth < a.toNat ∧ c = .depth) := by
  have hneg : sizeNotPositive a = true ↔ a = 0#32 ∨ a.msb = true := by simp [sizeNotPositive]
  by_cases hpos : a = 0#32 ∨ a.msb = true
  · rw [sizeCheck, if_pos (hneg.2 hpos)]
    simpa [hpos] using eq_comm
  · rw [sizeCheck, if_neg (mt hneg.1 hpos)]
    by_cases hdepth : depth < a.toNat
    · simpa [hpos, hdepth] using eq_comm
    · simp [hpos, hdepth]

/-- CREATE's four causes in their order. -/
theorem faultCause_create_iff (size : Word) :
    faultCause (.create tid size) s = some c ↔
      (s.ntab ≤ tid.toNat ∧ c = .badTable) ∨
        (tid.toNat < s.ntab ∧ (s.table tid).valid = true ∧ c = .tableLive) ∨
        (tid.toNat < s.ntab ∧ (s.table tid).valid = false ∧ (size = 0#32 ∨ size.msb = true) ∧ c = .size) ∨
        (tid.toNat < s.ntab ∧ (s.table tid).valid = false ∧ ¬ (size = 0#32 ∨ size.msb = true) ∧
          s.slotDepth < size.toNat ∧ c = .depth) := by
  have hcheck : faultCause (.create tid size) s = (needFree tid s).or (sizeCheck s.slotDepth size) := rfl
  rw [hcheck, Option.or_eq_some_iff, needFree_eq_some_iff, needFree_eq_none, sizeCheck_eq_some_iff]
  simp only [and_or_left, and_assoc, or_assoc]

/-- What a command does, by a condition on the causes that says which check fails first. -/
theorem exec_by_cause (hf : s.fault = false) {P : Cause → Prop} (h : ∀ c, faultCause i s = some c ↔ P c) :
    (∀ c, P c → ∃ a, exec i s = .next (((s.loadHeader (headerOf i)).loadArg a).die c)) ∧
      ((∀ c, ¬ P c) → ∃ t, exec i s = .next t ∧ t.fault = false) := by
  refine ⟨fun c hc => exec_of_faultCause_some hf ((h c).2 hc), fun hno => exec_of_faultCause_none hf ?_⟩
  exact Option.eq_none_iff_forall_ne_some.2 fun c hc => hno c ((h c).1 hc)

/-- Settles O38: each command's checks in their order; only CREATE has one of its operand. -/
theorem faultCauseByPriority : Obligations.FaultCauseByPriority := by
  intro i s hf
  cases i with
  | generate => exact exec_by_cause hf fun c => iff_of_false nofun id
  | len tid => exact exec_by_cause hf fun c => iff_of_false nofun id
  | create tid size => exact exec_by_cause hf fun c => faultCause_create_iff size
  | hash ch key =>
    exact exec_by_cause hf fun c => by
      rw [faultCause_of_no_operand rfl]
      exact needGenerated_eq_some_iff
  | getindex tid idx =>
    exact exec_by_cause hf fun c => by
      rw [faultCause_of_no_operand rfl]
      exact needLive_eq_some_iff
  | release tid cb =>
    exact exec_by_cause hf fun c => by
      rw [faultCause_of_no_operand rfl]
      exact needLive_eq_some_iff
  | put tid value key =>
    exact exec_by_cause hf fun c => by
      rw [faultCause_of_no_operand rfl]
      exact needGenerated_or_needLive_eq_some_iff
  | get tid key =>
    exact exec_by_cause hf fun c => by
      rw [faultCause_of_no_operand rfl]
      exact needGenerated_or_needLive_eq_some_iff
  | del tid key =>
    exact exec_by_cause hf fun c => by
      rw [faultCause_of_no_operand rfl]
      exact needGenerated_or_needLive_eq_some_iff

end Sys2Proof.Machine
end

-- ==== What stands in the slots (`spec/10_state.md` R42 d, `spec/42_hashtable.md` R186, R195) ====
section
namespace Sys2Proof.Machine

variable {i : Instr} {s t : State} {tid : TableId} {n : Nat} {b : Bucket}

/-! ## Occupied slots come from PUT -/

/-- A slot of `t` holds what it held in `s`, or what a PUT of `i` writes there. -/
def SlotFrom (i : Instr) (s t : State) (tid : TableId) (n : Nat) (b : Bucket) : Prop :=
  (s.live tid = true ∧ (s.table tid).size = (t.table tid).size ∧ slotRead (s.table tid).slots n = some b) ∨
    ∃ value key, i = .put tid value key ∧ b = putBucket s value key

/-- A context that is not written keeps its slots. -/
theorem KeepsOthers.slotFrom {w : Option TableId} (h : KeepsOthers w s t) (hw : w ≠ some tid) (hl : t.live tid = true)
    (hb : slotRead (t.table tid).slots n = some b) : SlotFrom i s t tid n b := by
  have htable := h.table tid hw
  refine .inl ⟨?_, by rw [htable], htable ▸ hb⟩
  rwa [State.live_iff, ← h.ntab, ← htable, ← State.live_iff]

/-- PUT adds its own bucket at most. -/
theorem putExit_slotFrom {u : State} {value : Word} {key : Key} (hlt : tid.toNat < u.ntab) (hl : s.live tid = true)
    (hu : u.table tid = s.table tid) (hnew : (⟨u.lanes.a.s1, u.lanes.b.s1, u.arg⟩ : Bucket) = putBucket s value key)
    (found : Option (Option Bucket)) (hb : slotRead ((putExit tid found u).1.table tid).slots n = some b) :
    SlotFrom (.put tid value key) s (putExit tid found u).1 tid n b := by
  cases found with
  | none => exact .inl ⟨hl, congrArg Context.size hu.symm, hu ▸ hb⟩
  | some r =>
    have htable : (putExit tid (some r) u).1.table tid =
        (s.table tid).fillAt u.cur.pos.toNat (putBucket s value key) := by
      rw [putExit_some, hnew, hu]
      exact State.setTable_table_same u tid _ hlt
    rw [htable, slotRead_fillAt] at hb
    split at hb
    · exact .inr ⟨value, key, rfl, (Option.some.inj hb).symm⟩
    · exact .inl ⟨hl, by rw [htable]; rfl, hb⟩

theorem delExit_some (tid : TableId) (r : Bucket) (s : State) :
    delExit tid (some (some r)) s = (s.setTable tid ((s.table tid).emptyAt s.cur.pos.toNat), okResponse r.value) := rfl

/-- DEL adds no bucket. -/
theorem delExit_slotFrom {u : State} {key : Key} (hlt : tid.toNat < u.ntab) (hl : s.live tid = true)
    (hu : u.table tid = s.table tid) (found : Option (Option Bucket))
    (hb : slotRead ((delExit tid found u).1.table tid).slots n = some b) :
    SlotFrom (.del tid key) s (delExit tid found u).1 tid n b := by
  obtain _ | _ | r := found
  · exact .inl ⟨hl, congrArg Context.size hu.symm, hu ▸ hb⟩
  · exact .inl ⟨hl, congrArg Context.size hu.symm, hu ▸ hb⟩
  · have htable : (delExit tid (some (some r)) u).1.table tid = (s.table tid).emptyAt u.cur.pos.toNat := by
      rw [delExit_some, hu]
      exact State.setTable_table_same u tid _ hlt
    rw [htable, slotRead_emptyAt] at hb
    split at hb
    · cases hb
    · exact .inl ⟨hl, by rw [htable]; rfl, hb⟩

/-- CREATE leaves no slot below SIZE occupied. -/
theorem create_slots_empty {size : Word} (ht : exec (.create tid size) s = .next t) (hf : t.fault = false)
    (hn : n < (t.table tid).size.toNat) : slotRead (t.table tid).slots n = none := by
  obtain ⟨hsf, hcheck, -⟩ := exec_of_no_fault ht hf
  obtain ⟨hlt, hfree⟩ := (needFree_eq_none tid s).1 hcheck
  cases hsize : sizeCheck s.slotDepth size with
  | some c =>
    obtain rfl := Host.Outcome.next.inj ((exec_create_of_size_fault hsf hlt hfree hsize).symm.trans ht)
    cases hf
  | none =>
    obtain rfl := Host.Outcome.next.inj ((exec_create_of_free hsf hlt hfree hsize).symm.trans ht)
    rw [State.answer_table, State.setTable_table_same _ tid _ (by simpa using hlt)] at hn ⊢
    exact (slotRead_clearBelow _ _ _).trans (if_pos hn)

/-- A probe ends in its exit, with the cursor where it ended. -/
theorem exists_exit_of_runProbe (tid : TableId) (stops : Option Bucket → Bool)
    (exit : Option (Option Bucket) → State → Result) (s : State) :
    ∃ found c, runProbe tid stops exit s = exit found (s.loadCursor c) := ⟨_, _, rfl⟩

/-- PUT ends in its exit, over a state with the contexts of `s` whose registers hold the new bucket. -/
theorem exists_putExit {value : Word} {key : Key} (hf : s.fault = false)
    (hc : headerCheck (.put tid) s = none) :
    ∃ found u, exec (.put tid value key) s = .next (emit (putExit tid found u)) ∧ u.tables = s.tables ∧
      (⟨u.lanes.a.s1, u.lanes.b.s1, u.arg⟩ : Bucket) = putBucket s value key := by
  obtain ⟨found, c, hexit⟩ := exists_exit_of_runProbe tid stopsPut (putExit tid)
    ((((s.loadHeader (.put tid)).loadArg value).hashKey key).startProbe tid)
  have hbody : ownPart (.put tid value key) (s.loadHeader (.put tid)) = _ := hexit
  refine ⟨found, _, by rw [exec_of_checks (.put tid value key) hf hc, headerOf, hbody], by simp, ?_⟩
  simp [lanesRun_eq, putBucket, keyHash]

/-- DEL ends in its exit, over a state with the contexts of `s`. -/
theorem exists_delExit {key : Key} (hf : s.fault = false) (hc : headerCheck (.del tid) s = none) :
    ∃ found u, exec (.del tid key) s = .next (emit (delExit tid found u)) ∧ u.tables = s.tables := by
  obtain ⟨found, c, hexit⟩ := exists_exit_of_runProbe tid
    (stopsLookup (lanesRun s.ct key).a.s1 (lanesRun s.ct key).b.s1) (delExit tid)
    (((s.loadHeader (.del tid)).hashKey key).startProbe tid)
  have hbody : ownPart (.del tid key) (s.loadHeader (.del tid)) = _ := hexit
  exact ⟨found, _, by rw [exec_of_checks (.del tid key) hf hc, headerOf, hbody], by simp⟩

/-- Settles O44: of the commands that write the context, PUT adds a bucket, CREATE has emptied the slots below SIZE, DEL
empties one, and RELEASE leaves no live table. -/
theorem occupiedSlotsComeFromPut : Obligations.OccupiedSlotsComeFromPut := by
  intro i s t tid n b ht hl hn hb
  change SlotFrom i s t tid n b
  cases hf : t.fault with
  | true =>
    obtain ⟨c, a, rfl⟩ := exec_of_fault ht hf
    exact .inl ⟨hl, rfl, hb⟩
  | false =>
    obtain ⟨hsf, hcheck, -⟩ := exec_of_no_fault ht hf
    have hsame : ∀ {u : State}, u.tables = s.tables → u.ntab = s.ntab ∧ u.table tid = s.table tid := fun hu =>
      ⟨by rw [State.ntab, State.ntab, hu], by rw [State.table, State.table, hu]⟩
    by_cases hw : writtenTable i = some tid
    · cases i with
      | create k size =>
        obtain rfl := Option.some.inj hw
        exact absurd (hb.symm.trans (create_slots_empty ht hf hn)) nofun
      | put k value key =>
        obtain rfl := Option.some.inj hw
        have hlive := ((needGenerated_or_needLive_eq_none k s).1 hcheck).2
        obtain ⟨found, u, hu, htables, hnew⟩ := exists_putExit (value := value) (key := key) hsf hcheck
        obtain rfl := Host.Outcome.next.inj (hu.symm.trans ht)
        obtain ⟨hntab, htable⟩ := hsame htables
        exact putExit_slotFrom (hntab ▸ ((State.live_iff s k).1 hlive).1) hlive htable hnew found hb
      | del k key =>
        obtain rfl := Option.some.inj hw
        have hlive := ((needGenerated_or_needLive_eq_none k s).1 hcheck).2
        obtain ⟨found, u, hu, htables⟩ := exists_delExit (key := key) hsf hcheck
        obtain rfl := Host.Outcome.next.inj (hu.symm.trans ht)
        obtain ⟨hntab, htable⟩ := hsame htables
        exact delExit_slotFrom (hntab ▸ ((State.live_iff s k).1 hlive).1) hlive htable found hb
      | release k cb =>
        obtain rfl := Option.some.inj hw
        have hlive := (needLive_eq_none k s).1 hcheck
        obtain rfl := Host.Outcome.next.inj ((exec_release_of_live hsf hlive cb).symm.trans ht)
        rw [State.live_iff, afterRelease_table hlive] at hl
        exact absurd hl.2 nofun
      | _ => cases hw
    · exact (exec_keepsOthers ht).slotFrom hw hl hb

/-! ## LEN over a run -/

/-- Settles O45: CREATE leaves LEN 0, and every command after it changes LEN by what it counts. -/
theorem lenCountsPutsMinusDels : Obligations.LenCountsPutsMinusDels := by
  intro tid size is s t hinv hrun hc hr
  obtain ⟨u, n, hu, -, hn, hcount⟩ := lenIsPutsMinusDels hinv tid size is t hrun hc hr
  obtain ⟨s', hs', hf, hrun'⟩ := safeRun_cons hrun
  obtain ⟨hok, -⟩ := create_tableOk hinv hs' hf
  have hlive := (safeRun_lenGrowsBy is hok hrun' hc hr).ok.live
  obtain rfl := Host.Outcome.next.inj ((exec_len_of_live hrun.2 hlive).symm.trans hu)
  rw [resultBetween_of_rsp (r := okResponse (t.table tid).len) rfl] at hn
  rw [← hcount, ← Option.some.inj hn, okResponse]

/-! ## Keys with equal hashes -/

/-- Two results that the host and the tables cannot tell apart. -/
structure SameOutcome (r r' : Result) : Prop where
  rsp : r.1.rsp = r'.1.rsp
  tables : r.1.tables = r'.1.tables
  response : r.2 = r'.2

/-- Two states that differ in the second registers of the lanes at most, which no exit reads. -/
def SameHashes (u u' : State) : Prop :=
  ∃ l, u' = u.loadLanes l ∧ l.id.s1 = u.lanes.id.s1 ∧ l.a.s1 = u.lanes.a.s1 ∧ l.b.s1 = u.lanes.b.s1

theorem putExit_sameOutcome {u u' : State} (h : SameHashes u u') (tid : TableId) (found : Option (Option Bucket)) :
    SameOutcome (putExit tid found u) (putExit tid found u') := by
  obtain ⟨l, rfl, -, ha, hb⟩ := h
  cases found with
  | none => exact ⟨rfl, rfl, rfl⟩
  | some r => exact ⟨rfl, by simp [putExit_some, ha, hb], rfl⟩

theorem getExit_sameOutcome {u u' : State} (h : SameHashes u u') (found : Option (Option Bucket)) :
    SameOutcome (getExit found u) (getExit found u') := by
  obtain ⟨l, rfl, -, -, -⟩ := h
  obtain _ | _ | _ := found <;> exact ⟨rfl, rfl, rfl⟩

theorem delExit_sameOutcome {u u' : State} (h : SameHashes u u') (tid : TableId) (found : Option (Option Bucket)) :
    SameOutcome (delExit tid found u) (delExit tid found u') := by
  obtain ⟨l, rfl, -, -, -⟩ := h
  obtain _ | _ | _ := found <;> exact ⟨rfl, rfl, rfl⟩

theorem hashKey_sameHashes {key key' : Key} (h : ∀ c, keyHash s.ct c key = keyHash s.ct c key') :
    SameHashes (s.hashKey key) (s.hashKey key') := by
  refine ⟨lanesRun s.ct key', rfl, ?_, ?_, ?_⟩
  all_goals rw [State.hashKey_lanes, lanesRun_eq, lanesRun_eq]
  exacts [(h .id).symm, (h .a).symm, (h .b).symm]

theorem startProbe_sameHashes {u u' : State} (h : SameHashes u u') (tid : TableId) :
    SameHashes (u.startProbe tid) (u'.startProbe tid) := by
  obtain ⟨l, rfl, hid, ha, hb⟩ := h
  refine ⟨l, ?_, hid, ha, hb⟩
  rw [State.startProbe, State.loadLanes_lanes, hid]
  rfl

theorem runProbe_sameOutcome {u u' : State} (h : SameHashes u u') (tid : TableId) (stops : Option Bucket → Bool)
    {exit : Option (Option Bucket) → State → Result}
    (hexit : ∀ found v v', SameHashes v v' → SameOutcome (exit found v) (exit found v')) :
    SameOutcome (runProbe tid stops exit u) (runProbe tid stops exit u') := by
  obtain ⟨l, rfl, hid, ha, hb⟩ := h
  exact hexit _ _ _ ⟨l, rfl, hid, ha, hb⟩

/-- Commands with one header whose own parts have the same outcome end alike, for they pass the same checks. -/
theorem exec_sameOutcome {j : Instr} (hf : s.fault = false) (hh : headerOf i = headerOf j)
    (h : SameOutcome (ownPart i (s.loadHeader (headerOf i))) (ownPart j (s.loadHeader (headerOf i)))) :
    ∃ t t', exec i s = .next t ∧ exec j s = .next t' ∧ t.rsp = t'.rsp ∧ t.tables = t'.tables := by
  cases hc : headerCheck (headerOf i) s with
  | some c =>
    refine ⟨_, _, exec_of_check_fails i hf hc, exec_of_check_fails j hf (hh ▸ hc), ?_⟩
    rw [hh]
    exact ⟨rfl, rfl⟩
  | none =>
    refine ⟨_, _, exec_of_checks i hf hc, exec_of_checks j hf (hh ▸ hc), ?_⟩
    rw [← hh, emit_rsp, emit_rsp, h.rsp, h.response, emit_tables, emit_tables]
    exact ⟨rfl, h.tables⟩

/-- Settles O31: after hashing the two states agree in everything that the probe and its exit read. -/
theorem equalHashesAreOneKey : Obligations.EqualHashesAreOneKey := by
  intro tid value key key' s hf hhash
  have hstart : ∀ u : State, u.ct = s.ct →
      SameHashes ((u.hashKey key).startProbe tid) ((u.hashKey key').startProbe tid) := fun u hu =>
    startProbe_sameHashes (hashKey_sameHashes (by rw [hu]; exact hhash)) tid
  have hlookup : ∀ {exit : Option (Option Bucket) → State → Result} {u u' : State}, SameHashes u u' →
      (∀ found v v', SameHashes v v' → SameOutcome (exit found v) (exit found v')) →
      SameOutcome (runProbe tid (stopsLookup u.lanes.a.s1 u.lanes.b.s1) exit u)
        (runProbe tid (stopsLookup u'.lanes.a.s1 u'.lanes.b.s1) exit u') := fun {exit u u'} h hexit => by
    have hsame := runProbe_sameOutcome h tid (stopsLookup u.lanes.a.s1 u.lanes.b.s1) hexit
    obtain ⟨l, rfl, -, ha, hb⟩ := h
    rwa [State.loadLanes_lanes, ha, hb]
  exact ⟨exec_sameOutcome hf rfl (hlookup (hstart (s.loadHeader (.get tid)) rfl) fun found _ _ h => getExit_sameOutcome h found),
    exec_sameOutcome hf rfl (hlookup (hstart (s.loadHeader (.del tid)) rfl) fun found _ _ h => delExit_sameOutcome h tid found),
    exec_sameOutcome hf rfl (runProbe_sameOutcome (hstart ((s.loadHeader (.put tid)).loadArg value) rfl) tid stopsPut fun found _ _ h =>
      putExit_sameOutcome h tid found)⟩

end Sys2Proof.Machine
end

-- ==== Steps and parameters (`spec/43_controller.md` R221, `spec/60_exceptions.md` R251, `spec/10_state.md` R22) ====
section
namespace Sys2Proof.Machine

variable {s t : State} {p : Pins}

/-! ## A step between commands -/

theorem step_of_idle (hp : s.phase = .idle) (hf : s.fault = false) : step s = stepIdle s := by
  simp [step, hp, hf]

theorem step_of_packet (hp : s.phase = .idle) (hf : s.fault = false) {i : Instr} {rest : List Byte}
    (h : decodePacket s.cmd = .packet i rest) : step s = exec i (s.accept rest) := by
  rw [step_of_idle hp hf, stepIdle, fetch, h]

/-- Settles O8: the decoded packet is accepted and its command runs. -/
theorem stepRunsDecodedCommand : Obligations.StepRunsDecodedCommand := fun _ _ _ hp hf h => step_of_packet hp hf h

/-- With nothing on the command channel the controller waits in IDLE. -/
theorem advance_of_idle_empty (hp : s.phase = .idle) (hcmd : s.cmd = []) : advance s = s := by
  have hwait : tick (hostPins s) s = s :=
    tick_of_cmdReady rfl ((cmdReady_iff s).2 (.inl hp)) (by simp [hostPins, hcmd])
  simp [advance, hwait, hcmd]

/-- Settles O9: no packet is there, so the step is one tick, and the tick waits. -/
theorem stepWaitsWithoutCommand : Obligations.StepWaitsWithoutCommand := by
  intro s hp hf hcmd
  have hfetch : fetch s = .incomplete := by simp [fetch, hcmd, decodePacket, takeWord, needPart]
  rw [step_of_idle hp hf, stepIdle, hfetch, advance_of_idle_empty hp hcmd]

/-- Settles O40: FAULT stops every command, DEAD every tick. -/
theorem deadBlockTakesNoStep : Obligations.DeadBlockTakesNoStep := by
  refine ⟨fun i s hf => ?_, fun s hf hp => ?_, fun s hp => ?_⟩
  · rw [exec_eq_runCommand, runCommand_dead _ _ hf]
  · obtain hp | hp := hp
    · simp [step, hp, hf]
    · exact step_of_dead hp
  · exact ⟨by simp [cmdReady, hp], by simp [rspValid, hp], step_of_dead hp, fun _ => tick_of_dead hp⟩

/-! ## The parameters (`spec/10_state.md` R22) -/

@[simp] theorem setTable_params (s : State) (tid : TableId) (c : Context) : (s.setTable tid c).params = s.params := by
  simp [State.params]

@[simp] theorem loadArg_params (s : State) (a : Word) : (s.loadArg a).params = s.params := rfl
@[simp] theorem loadLanes_params (s : State) (l : Lanes) : (s.loadLanes l).params = s.params := rfl
@[simp] theorem loadCursor_params (s : State) (c : Cursor) : (s.loadCursor c).params = s.params := rfl
@[simp] theorem loadPos_params (s : State) (pos : Word) : (s.loadPos pos).params = s.params := rfl
@[simp] theorem loadVals_params (s : State) (vals : List Word) : (s.loadVals vals).params = s.params := rfl
@[simp] theorem loadGen_params (s : State) (x : GenRegs × Memory Word) : (s.loadGen x).params = s.params := rfl
@[simp] theorem setGenerated_params (s : State) : s.setGenerated.params = s.params := rfl
@[simp] theorem enter_params (s : State) (ph : Phase) : (s.enter ph).params = s.params := rfl
@[simp] theorem startProbe_params (s : State) (tid : TableId) : (s.startProbe tid).params = s.params := rfl
@[simp] theorem offer_params (r : Result) : (offer r).params = r.1.params := rfl
@[simp] theorem raiseFault_params (c : Cause) (s : State) : (raiseFault c s).1.params = s.params := rfl

theorem WritesOnly.params {w : Option TableId} (h : WritesOnly w s t) : t.params = s.params := by
  rw [State.params, State.params, State.ntab, State.ntab, h.tables_length, h.slotDepth, h.ctHardwired]

@[simp] theorem keyEntry_params (h : Header) (s : State) : (keyEntry h s).params = s.params := by
  cases h <;> rfl

theorem headerDone_params (s : State) : (headerDone s).params = s.params := by
  unfold headerDone
  split
  · simp
  · split
    · simp
    · split
      case h_1 =>
        split
        · exact (generateBody_writesOnly none s).params
        · simp
      case h_8 => rw [offer_params, lenBody_state]
      all_goals simp [releaseEntry]

theorem argDone_params (s : State) : (argDone s).params = s.params := by
  unfold argDone
  split
  · split <;> simp [clearEntry]
  · simp
  · rw [offer_params, getindexExit_state]
  · rfl

theorem keyDone_params (s : State) : (keyDone s).params = s.params := by
  unfold keyDone
  split <;> simp

theorem genTick_params (s : State) : (genTick s).params = s.params := by
  unfold genTick
  split <;> simp

theorem clearTick_params (s : State) : (clearTick s).params = s.params := by
  unfold clearTick
  split
  · dsimp only
    split <;> simp [createExit]
  · rfl

theorem probeIter_params {tid : TableId} {stops : Option Bucket → Bool}
    {exit : Option (Option Bucket) → State → Result} (hexit : ∀ found u, (exit found u).1.params = u.params) (s : State) :
    (probeIter tid stops exit s).params = s.params := by
  simp only [probeIter]
  split
  · simp [hexit]
  · split
    · simp [hexit]
    · split <;> simp [hexit]

theorem probeTick_params (s : State) : (probeTick s).params = s.params := by
  unfold probeTick
  split
  · exact probeIter_params (fun found u => (putExit_writesOnly _ found u).params) s
  · exact probeIter_params (fun found u => by rw [getExit_state]) s
  · exact probeIter_params (fun found u => (delExit_writesOnly _ found u).params) s
  · rfl

@[simp] theorem releaseExit_params (tid : TableId) (s : State) : (releaseExit tid s).1.params = s.params :=
  setTable_params s tid _

theorem relTick_params (s : State) : (relTick s).params = s.params := by
  unfold relTick
  split
  · dsimp only
    split
    · simp
    · split <;> simp
  · rfl

theorem respTick_params (s : State) : (respTick s).params = s.params := by
  unfold respTick
  split <;> rfl

theorem receiveHeaderByte_params (b : Byte) (s : State) : (receiveHeaderByte b s).params = s.params := by
  unfold receiveHeaderByte
  split
  · exact headerDone_params _
  · rfl

theorem receiveArgByte_params (b : Byte) (s : State) : (receiveArgByte b s).params = s.params := by
  unfold receiveArgByte
  split
  · exact argDone_params _
  · rfl

theorem receiveKeyByte_params (b : Byte) (s : State) : (receiveKeyByte b s).params = s.params := by
  unfold receiveKeyByte
  split
  · exact keyDone_params s
  · split <;> rfl

theorem tick_params (p : Pins) (s : State) : (tick p s).params = s.params := by
  unfold tick
  split
  · simp [pulseReset, State.resetWith, State.params, State.ntab]
  · split
    case h_1 | h_2 => split <;> [exact receiveHeaderByte_params _ s; rfl]
    case h_3 => split <;> [exact receiveArgByte_params _ s; rfl]
    case h_4 => split <;> [exact receiveKeyByte_params _ s; rfl]
    case h_5 => exact genTick_params s
    case h_6 => exact clearTick_params s
    case h_7 => exact probeTick_params s
    case h_8 => exact relTick_params s
    case h_9 => split <;> [exact respTick_params s; rfl]
    case h_10 => rfl

/-- The byte that leaves the channel is not read by what the tick did. -/
theorem advance_eq (s : State) :
    advance s = tick (hostPins s) s ∨ advance s = (tick (hostPins s) s).accept s.cmd.tail := by
  unfold advance
  dsimp only
  split
  · exact .inr rfl
  · exact .inl rfl

theorem advance_params (s : State) : (advance s).params = s.params := by
  obtain h | h := advance_eq s <;> rw [h]
  · exact tick_params _ s
  · exact tick_params _ s

theorem exec_params {i : Instr} (ht : exec i s = .next t) : t.params = s.params := by
  obtain ⟨-, r, rfl, -, hw⟩ := exec_ending ht
  exact hw.params

/-- A step is a command between commands, the rejection of a header there, or a tick of the controller. -/
theorem step_cases (ht : step s = .next t) :
    (∃ i rest, s.phase = .idle ∧ s.fault = false ∧ decodePacket s.cmd = .packet i rest ∧
        exec i (s.accept rest) = .next t) ∨
      (∃ h why rest, s.phase = .idle ∧ s.fault = false ∧ decodePacket s.cmd = .illegal h why rest ∧
        t = rejectHeader h (s.accept rest)) ∨
      t = advance s := by
  unfold step at ht
  split at ht
  case h_1 => cases ht
  case h_2 hp =>
    split at ht
    · cases ht
    · next hf =>
      unfold stepIdle at ht
      split at ht
      · next hfetch => exact .inl ⟨_, _, hp, by simpa using hf, hfetch, ht⟩
      · next hfetch => exact .inr (.inl ⟨_, _, _, hp, by simpa using hf, hfetch, (Host.Outcome.next.inj ht).symm⟩)
      · exact .inr (.inr (Host.Outcome.next.inj ht).symm)
  all_goals exact .inr (.inr (Host.Outcome.next.inj ht).symm)

/-- Settles O48: neither a command nor a tick writes a parameter, and reset builds the machine anew with its own. -/
theorem parametersNeverChange : Obligations.ParametersNeverChange := by
  refine ⟨fun s t ht => ?_, tick_params⟩
  obtain ⟨i, rest, -, -, -, hexec⟩ | ⟨h, why, rest, -, -, -, rfl⟩ | rfl := step_cases ht
  · exact exec_params (s := s.accept rest) hexec
  · rfl
  · exact advance_params s

/-! ## The invariant right after reset (`spec/10_state.md` R44) -/

/-- The mask ROM lists no index outside the 1280 words. -/
theorem ctConstant_bounded : ∀ c ∈ ctConstant, c.1 < Config.ctWords := by
  intro c hc
  obtain ⟨n, hn, rfl⟩ := List.mem_map.1 (List.mem_filter.1 hc).1
  exact List.mem_range.1 hn

theorem resetWith_ct_of_rom {params : Config.Params} (h : params.ctHardwired = true) :
    (State.resetWith params).ct = ctConstant := if_pos h

theorem resetWith_ct_of_no_rom {params : Config.Params} (h : params.ctHardwired = false) :
    (State.resetWith params).ct = [] := if_neg (by simp [h])

theorem resetWith_archInv {params : Config.Params} (hlegal : params.legal) : ArchInv (State.resetWith params) := by
  obtain ⟨hct, htables⟩ := resetWith_memories_wf params
  refine ⟨?_, hct, ?_, fun hg => ?_, id, fun c hc => ⟨htables c hc, fun hv => ?_⟩, Nat.zero_le 6, iff_of_true rfl rfl⟩
  · have hparams : (State.resetWith params).params = params := by simp [State.params, State.ntab, State.resetWith]
    rwa [hparams]
  · cases hrom : params.ctHardwired with
    | true => rw [resetWith_ct_of_rom hrom]; exact ctConstant_bounded
    | false => rw [resetWith_ct_of_no_rom hrom]; exact fun _ hc => absurd hc List.not_mem_nil
  · rw [resetWith_ct_of_rom hg]
    exact fun n hn => ctRead_ctConstant hn
  · rw [resetWith_tables_not_valid params c hc] at hv
    cases hv

theorem resetWith_inv {params : Config.Params} (hlegal : params.legal) : Inv (State.resetWith params) :=
  ⟨resetWith_archInv hlegal, rfl, rfl, rfl, rfl⟩

/-- Settles O50: no context is live, and CT holds the constant exactly where GEN_DONE says so. -/
theorem invHoldsAtReset : Obligations.InvHoldsAtReset :=
  ⟨resetWith_inv (by decide), fun _ => resetWith_inv⟩

/-! ## FAULT through the controller (`spec/60_exceptions.md` R252) -/

/-- A block of the invariant with FAULT = 1 is sending its last response or dead. -/
theorem Inv.phase_of_fault (h : Inv s) (hf : s.fault = true) : s.phase = .resp ∨ s.phase = .dead := by
  obtain ⟨-, h⟩ := h
  have hno : ∀ {q : Prop}, s.fault = false ∧ q → s.phase = .resp ∨ s.phase = .dead := fun h => by
    rw [hf] at h
    cases h.1
  unfold PhaseInv at h
  split at h
  case h_9 hp => exact .inl hp
  case h_10 hp => exact .inr hp
  all_goals exact hno h

theorem respTick_fault (s : State) : (respTick s).fault = s.fault ∧ (respTick s).fcause = s.fcause := by
  unfold respTick
  split <;> exact ⟨rfl, rfl⟩

/-- Settles O41: neither sending a byte nor waiting in DEAD touches FAULT, and reset clears it. -/
theorem faultIsClearedOnlyByReset : Obligations.FaultIsClearedOnlyByReset := by
  intro p s hinv hf
  refine ⟨fun hrst => ?_, fun hrst => by rw [tick_of_rst hrst]; exact ⟨rfl, rfl⟩⟩
  obtain hp | hp := hinv.phase_of_fault hf
  · cases hready : p.rspReady with
    | false => rw [tick_of_resp hrst hp hready]; exact ⟨hf, rfl⟩
    | true =>
      have htick : tick p s = respTick s := by simp [tick, hrst, hp, hready]
      rw [htick, (respTick_fault s).1, (respTick_fault s).2]
      exact ⟨hf, rfl⟩
  · rw [tick_of_dead hp hrst]
    exact ⟨hf, rfl⟩

end Sys2Proof.Machine
end

-- ==== The architectural part of the invariant (`spec/10_state.md` R42) ====
section
namespace Sys2Proof.Machine

variable {s t : State} {tid : TableId} {c : Context} {r : Result}

/-- The architectural part reads architectural state only. -/
theorem ArchInv.of_sameArch (h : ArchInv s) (ht : SameArch s t) : ArchInv t := by
  obtain ⟨hgen, hct, hfault, hfcause, htables, hdepth, hrom⟩ := ht
  simpa only [ArchInv, State.params, State.ntab, hgen, hct, hfault, hfcause, htables, hdepth, hrom] using h

theorem ArchInv.raiseFault (h : ArchInv s) (c : Cause) : ArchInv (raiseFault c s).1 := by
  obtain ⟨hlegal, hct, hbound, hconst, hrom, htables, -, -⟩ := h
  have hcode : (causeCode c).toNat ≤ 6 ∧ causeCode c ≠ 0#4 := by cases c <;> decide
  exact ⟨hlegal, hct, hbound, hconst, hrom, htables, hcode.1, iff_of_false hcode.2 nofun⟩

theorem ArchInv.setTable (h : ArchInv s) (tid : TableId) (hc : ContextOk s.slotDepth c) : ArchInv (s.setTable tid c) := by
  obtain ⟨hlegal, hct, hbound, hconst, hrom, htables, hcause⟩ := h
  refine ⟨by simpa only [setTable_params] using hlegal, hct, hbound, hconst, hrom, fun c' hc' => ?_, hcause⟩
  obtain hold | rfl := List.mem_or_eq_of_mem_set hc'
  · exact htables c' hold
  · exact hc

/-- One word of the generated table is written while GEN_DONE = 0. -/
theorem ArchInv.loadGen (h : ArchInv s) (hg : s.genDone = false) (g : GenRegs) {n : Nat} (hn : n < Config.ctWords)
    (v : Word) : ArchInv (s.loadGen (g, ctWrite s.ct n v)) := by
  obtain ⟨hlegal, hct, hbound, -, hrom, htables, hcause⟩ := h
  refine ⟨hlegal, ctWrite_ctWf hct n v, ctWrite_bound hbound hn v, fun hgen => ?_, hrom, htables, hcause⟩
  exact absurd (hg.symm.trans hgen) nofun

theorem ArchInv.setGenerated (h : ArchInv s) (hct : CtIsConstant s.ct) : ArchInv s.setGenerated := by
  obtain ⟨hlegal, hwf, hbound, -, -, htables, hcause⟩ := h
  exact ⟨hlegal, hwf, hbound, fun _ => hct, fun _ => rfl, htables, hcause⟩

/-! ## A response offered to the host -/

theorem Response.bytes_ne_nil (r : Response) : r.bytes ≠ [] := by
  simp [Response.bytes, bytesOfWord]

/-- What a command leaves when its response is about to be sent. -/
structure Answers (r : Result) : Prop where
  arch : ArchInv r.1
  rx : r.1.rx = 0#2
  vals : r.1.vals = []

theorem Answers.inv (h : Answers r) : Inv (offer r) :=
  ⟨h.arch.of_sameArch ⟨rfl, rfl, rfl, rfl, rfl, rfl, rfl⟩, h.rx, h.vals, Response.bytes_ne_nil r.2⟩

/-- The invariant of a state in which a command runs, apart from its phase. -/
structure Running (s : State) : Prop where
  arch : ArchInv s
  noFault : s.fault = false
  rx : s.rx = 0#2
  tx : s.tx = []
  vals : s.vals = []

theorem Running.quiet (h : Running s) : QuietRegs s := ⟨h.rx, h.tx, h.vals⟩

theorem Running.answers (h : Running s) (resp : Response) : Answers (s, resp) := ⟨h.arch, h.rx, h.vals⟩

theorem Running.raise (h : Running s) (c : Cause) : Answers (raiseFault c s) := ⟨h.arch.raiseFault c, h.rx, h.vals⟩

/-- The working registers play no part. -/
theorem Running.congr (h : Running s) (ht : SameArch s t) (hrx : t.rx = s.rx) (htx : t.tx = s.tx)
    (hvals : t.vals = s.vals) : Running t :=
  ⟨h.arch.of_sameArch ht, ht.2.2.1.trans h.noFault, hrx.trans h.rx, htx.trans h.tx, hvals.trans h.vals⟩

theorem Running.setTable (h : Running s) (tid : TableId) (hc : ContextOk s.slotDepth c) : Running (s.setTable tid c) :=
  ⟨h.arch.setTable tid hc, h.noFault, h.rx, h.tx, h.vals⟩

/-! ## The exits of the commands -/

theorem putExit_answers (h : Running s) (hok : TableOk s tid) (hpos : s.cur.pos.toNat < (s.table tid).size.toNat)
    {found : Option (Option Bucket)}
    (hfound : ∀ r, found = some r → slotRead (s.table tid).slots s.cur.pos.toNat = none) :
    Answers (putExit tid found s) := by
  cases found with
  | none => exact h.answers _
  | some r => exact (h.setTable tid (hok.context.fillAt hpos (hfound r rfl) _).ok).answers _

theorem getExit_answers (h : Running s) (found : Option (Option Bucket)) : Answers (getExit found s) := by
  obtain _ | _ | _ := found <;> exact h.answers _

theorem delExit_answers (h : Running s) (hok : TableOk s tid) (hpos : s.cur.pos.toNat < (s.table tid).size.toNat)
    {found : Option (Option Bucket)}
    (hfound : ∀ b, found = some (some b) → slotRead (s.table tid).slots s.cur.pos.toNat = some b) :
    Answers (delExit tid found s) := by
  obtain _ | _ | b := found
  · exact h.answers _
  · exact h.answers _
  · exact (h.setTable tid (hok.context.emptyAt hpos (hfound b rfl)).ok).answers _

/-- A released context is not live, so only the form of its slot memory is asked for. -/
theorem releasedContext_ok (depth choice : Nat) (tid : TableId) : ContextOk depth (releasedContext choice tid) :=
  ⟨Memory.ofList_wf _, nofun⟩

theorem releaseExit_answers (harch : ArchInv s) (hrx : s.rx = 0#2) : Answers (releaseExit tid s) := by
  refine ⟨(harch.setTable tid (releasedContext_ok s.slotDepth s.choices tid)).of_sameArch ?_, hrx, rfl⟩
  exact ⟨rfl, rfl, rfl, rfl, rfl, rfl, rfl⟩

theorem occupiedCount_eq_zero {m : Memory Bucket} {n : Nat} (h : ∀ i < n, slotRead m i = none) :
    occupiedCount m n = 0 :=
  List.countP_eq_zero.2 fun i hi => by simp [h i (List.mem_range.1 hi)]

/-- CREATE's exit over a context whose slots below SIZE the scan has emptied. -/
theorem createExit_answers (h : Running s) (hlt : tid.toNat < s.ntab)
    (hsize : sizeCheck s.slotDepth (s.table tid).size = none) (hlen : (s.table tid).len = 0#32)
    (hempty : ∀ i < (s.table tid).size.toNat, slotRead (s.table tid).slots i = none) : Answers (createExit tid s) := by
  obtain ⟨hne, -, hle⟩ := (sizeCheck_eq_none _ _).1 hsize
  have hpos : (s.table tid).size.toNat ≠ 0 := fun h => hne (BitVec.eq_of_toNat_eq h)
  have hok : ContextOk s.slotDepth { s.table tid with valid := true } := by
    refine ⟨(ArchInv.contextOk h.arch hlt).1, fun _ => ⟨Nat.one_le_iff_ne_zero.2 hpos, hle, ?_⟩⟩
    rw [occupiedCount_eq_zero hempty, hlen]
    rfl
  exact (h.setTable tid hok).answers _

end Sys2Proof.Machine
end

-- ==== The invariant through the controller's phases (`spec/43_controller.md` R225 to R231) ====
section
namespace Sys2Proof.Machine

variable {s : State} {h : Header}

/-! ## Entering a phase -/

/-- The header checks, passed, as they stand after a change of working registers. -/
theorem Running.headerCheck_eq {t : State} (hcheck : headerCheck h s = none) (hg : t.genDone = s.genDone)
    (ht : t.tables = s.tables) : headerCheck h t = none :=
  (headerCheck_congr h hg ht).trans hcheck

theorem keyEntry_inv (hs : Running s) (hdec : decodeHeader s.opc = .ok h) (hkey : h.hasKey = true)
    (hcheck : headerCheck h s = none) : Inv (keyEntry h s) := by
  have henter : ∀ l, Inv ((s.loadLanes l).enter .key) := fun l =>
    ⟨hs.arch.of_sameArch ⟨rfl, rfl, rfl, rfl, rfl, rfl, rfl⟩, hs.noFault, hs.quiet, h, hdec, hkey,
      Running.headerCheck_eq hcheck rfl rfl⟩
  unfold keyEntry
  split <;> exact henter _

theorem enter_recvA_inv (hs : Running s) (hdec : decodeHeader s.opc = .ok h) (harg : h.hasArg = true)
    (hcheck : headerCheck h s = none) : Inv (s.enter .recvA) :=
  ⟨hs.arch.of_sameArch ⟨rfl, rfl, rfl, rfl, rfl, rfl, rfl⟩, hs.noFault, hs.tx, hs.vals, h, hdec, harg,
    Running.headerCheck_eq hcheck rfl rfl⟩

theorem enter_gen_inv (hs : Running s) (hdec : decodeHeader s.opc = .ok .generate) (hg : s.genDone = false) :
    Inv ((s.loadGen (genRegsInit, s.ct)).enter .gen) :=
  ⟨hs.arch.of_sameArch ⟨rfl, rfl, rfl, rfl, rfl, rfl, rfl⟩, hs.noFault, hs.quiet, hdec, hg, 0, by decide, rfl,
    fun _ hj => absurd hj (Nat.not_lt_zero _)⟩

theorem enter_rel_inv {tid : TableId} {cb : Bool} (hs : Running s) (hdec : decodeHeader s.opc = .ok (.release tid cb))
    (hcheck : headerCheck (.release tid cb) s = none) : Inv ((releaseEntry s).enter .rel) :=
  ⟨hs.arch.of_sameArch ⟨rfl, rfl, rfl, rfl, rfl, rfl, rfl⟩, hs.noFault, hs.rx, hs.tx, tid, cb, hdec,
    Running.headerCheck_eq hcheck rfl rfl,
    (ArchInv.tableOk hs.arch ((needLive_eq_none tid s).1 hcheck)).context.size_pos⟩

/-! ## Receiving -/

theorem generateBody_answers (hs : Running s) (hg : s.genDone = true) : Answers (generateBody s) := by
  rw [generateBody, if_pos hg]
  exact hs.answers _

theorem lenBody_answers (hs : Running s) (tid : TableId) : Answers (lenBody tid s) := by
  rw [lenBody]
  split <;> exact hs.answers _

theorem getindexExit_answers (hs : Running s) (tid : TableId) : Answers (getindexExit tid s) := by
  have hexit : getindexExit tid s = (s, (getindexExit tid s).2) := Prod.ext (getindexExit_state tid s) rfl
  rw [hexit]
  exact hs.answers _

/-- After the header word, a response or the next phase of the command. -/
theorem headerDone_inv (hs : Running s) : Inv (headerDone s) := by
  unfold headerDone
  split
  · exact (hs.raise _).inv
  · next h hdec =>
    split
    · exact (hs.raise _).inv
    · next hcheck =>
      cases h with
      | generate =>
        dsimp only
        split
        · next hg => exact (generateBody_answers hs hg).inv
        · next hg => exact enter_gen_inv hs hdec (by simpa using hg)
      | hash ch => exact keyEntry_inv hs hdec rfl hcheck
      | get tid => exact keyEntry_inv hs hdec rfl hcheck
      | del tid => exact keyEntry_inv hs hdec rfl hcheck
      | create tid => exact enter_recvA_inv hs hdec rfl hcheck
      | put tid => exact enter_recvA_inv hs hdec rfl hcheck
      | getindex tid => exact enter_recvA_inv hs hdec rfl hcheck
      | len tid => exact (lenBody_answers hs tid).inv
      | release tid cb => exact enter_rel_inv hs hdec hcheck

theorem clearEntry_inv {tid : TableId} (hs : Running s) (hdec : decodeHeader s.opc = .ok (.create tid))
    (hcheck : headerCheck (.create tid) s = none) (hsize : sizeCheck s.slotDepth s.arg = none) :
    Inv ((clearEntry tid s).enter .clear) := by
  obtain ⟨hlt, hfree⟩ := (needFree_eq_none tid s).1 hcheck
  have htable := clearEntry_table (s := s) (tid := tid) hlt
  have hok : ContextOk s.slotDepth { s.table tid with size := s.arg, len := 0#32 } :=
    ⟨(ArchInv.contextOk hs.arch hlt).1, fun hv => absurd (hfree.symm.trans hv) nofun⟩
  obtain ⟨hne, -, -⟩ := (sizeCheck_eq_none _ _).1 hsize
  have hpos : 0 < s.arg.toNat := Nat.pos_of_ne_zero fun h => hne (BitVec.eq_of_toNat_eq h)
  have hfree' : headerCheck (.create tid) (clearEntry tid s) = none := by
    refine (needFree_eq_none tid _).2 ⟨by simpa [clearEntry] using hlt, ?_⟩
    rw [htable]
    exact hfree
  refine ⟨(hs.arch.setTable tid hok).of_sameArch ⟨rfl, rfl, rfl, rfl, rfl, rfl, rfl⟩, hs.noFault, hs.quiet, tid, hdec,
    Running.headerCheck_eq hfree' rfl rfl, hsize, ?_, ?_, hpos, fun i hi => absurd hi (Nat.not_lt_zero i)⟩
  · exact congrArg Context.size htable
  · exact congrArg Context.len htable

/-- After the argument word, a response or the next phase of the command. -/
theorem argDone_inv (hs : Running s) (hdec : decodeHeader s.opc = .ok h) (harg : h.hasArg = true)
    (hcheck : headerCheck h s = none) : Inv (argDone s) := by
  unfold argDone
  rw [hdec]
  cases h with
  | create tid =>
    dsimp only
    split
    · exact (hs.raise _).inv
    · next hsize => exact clearEntry_inv hs hdec hcheck hsize
  | put tid => exact keyEntry_inv hs hdec rfl hcheck
  | getindex tid => exact (getindexExit_answers hs tid).inv
  | _ => cases harg

/-- The probe registers on entry are within the table (R176). -/
theorem startProbe_inv {tid : TableId} (hs : Running s) (hdec : decodeHeader s.opc = .ok h)
    (hh : h = .put tid ∨ h = .get tid ∨ h = .del tid) (hcheck : headerCheck h s = none) :
    Inv ((s.startProbe tid).enter .probe) := by
  have hlive : s.live tid = true := by
    obtain rfl | rfl | rfl := hh
    all_goals exact ((needGenerated_or_needLive_eq_none tid s).1 hcheck).2
  have hsize := (ArchInv.tableOk hs.arch hlive).context.size_pos
  refine ⟨hs.arch.of_sameArch ⟨rfl, rfl, rfl, rfl, rfl, rfl, rfl⟩, hs.noFault, hs.quiet, h, tid, hdec, hh,
    Running.headerCheck_eq hcheck rfl rfl, ?_, hsize⟩
  have hpos := cursorAt_pos s.lanes.id.s1 (s.table tid).size 0 hsize
  rw [← cursorStart_eq] at hpos
  exact hpos.trans_lt (pathPos_lt _ _ _ hsize)

/-- After the key's terminator, a response or the probe. -/
theorem keyDone_inv (hs : Running s) (hdec : decodeHeader s.opc = .ok h) (hkey : h.hasKey = true)
    (hcheck : headerCheck h s = none) : Inv (keyDone s) := by
  unfold keyDone
  rw [hdec]
  cases h with
  | hash ch => exact (hs.answers _).inv
  | put tid => exact startProbe_inv hs hdec (.inl rfl) hcheck
  | get tid => exact startProbe_inv hs hdec (.inr (.inl rfl)) hcheck
  | del tid => exact startProbe_inv hs hdec (.inr (.inr rfl)) hcheck
  | _ => cases hkey

theorem rx_after_third {x : BitVec 2} (h : x = 3#2) : x + 1#2 = 0#2 := by rw [h]; decide

theorem rx_before_third {x : BitVec 2} (h : x ≠ 3#2) : x + 1#2 ≠ 0#2 := by revert x; decide

theorem receiveHeaderByte_inv (harch : ArchInv s) (hf : s.fault = false) (htx : s.tx = []) (hvals : s.vals = [])
    (b : Byte) : Inv (receiveHeaderByte b s) := by
  unfold receiveHeaderByte
  dsimp only
  split
  · next hrx =>
    exact headerDone_inv ⟨harch.of_sameArch ⟨rfl, rfl, rfl, rfl, rfl, rfl, rfl⟩, hf, rx_after_third hrx, htx, hvals⟩
  · next hrx =>
    exact ⟨harch.of_sameArch ⟨rfl, rfl, rfl, rfl, rfl, rfl, rfl⟩, hf, htx, hvals, rx_before_third hrx⟩

theorem receiveArgByte_inv (hs : Inv s) (hp : s.phase = .recvA) (b : Byte) : Inv (receiveArgByte b s) := by
  obtain ⟨harch, hphase⟩ := hs
  simp only [PhaseInv, hp] at hphase
  obtain ⟨hf, htx, hvals, h, hdec, harg, hcheck⟩ := hphase
  unfold receiveArgByte
  dsimp only
  split
  · next hrx =>
    exact argDone_inv ⟨harch.of_sameArch ⟨rfl, rfl, rfl, rfl, rfl, rfl, rfl⟩, hf, rx_after_third hrx, htx, hvals⟩ hdec
      harg (Running.headerCheck_eq hcheck rfl rfl)
  · refine ⟨harch.of_sameArch ⟨rfl, rfl, rfl, rfl, rfl, rfl, rfl⟩, ?_⟩
    simp only [PhaseInv, hp]
    exact ⟨hf, htx, hvals, h, hdec, harg, Running.headerCheck_eq hcheck rfl rfl⟩

theorem receiveKeyByte_inv (hs : Inv s) (hp : s.phase = .key) (b : Byte) : Inv (receiveKeyByte b s) := by
  obtain ⟨harch, hphase⟩ := hs
  simp only [PhaseInv, hp] at hphase
  obtain ⟨hf, ⟨hrx, htx, hvals⟩, h, hdec, hkey, hcheck⟩ := hphase
  have hload : ∀ l, Inv (s.loadLanes l) := fun l => by
    refine ⟨harch.of_sameArch ⟨rfl, rfl, rfl, rfl, rfl, rfl, rfl⟩, ?_⟩
    simp only [PhaseInv, State.loadLanes_phase, hp]
    exact ⟨hf, ⟨hrx, htx, hvals⟩, h, hdec, hkey, Running.headerCheck_eq hcheck rfl rfl⟩
  unfold receiveKeyByte
  split
  · exact keyDone_inv ⟨harch, hf, hrx, htx, hvals⟩ hdec hkey hcheck
  · split <;> exact hload _

/-! ## The loops -/

/-- The last pass is the one at I1 = 255 and PASS = 4 (R227). -/
theorem genRegsAt_last_iff {k : Nat} (hk : k < Config.ctWords) :
    (genRegsAt k).i1 = 255#8 ∧ (genRegsAt k).pass = 4#3 ↔ k + 1 = Config.ctWords := by
  have hk' : k < 1280 := hk
  rw [← BitVec.toNat_inj, ← BitVec.toNat_inj, genRegsAt_i1_toNat hk, genRegsAt_pass_toNat]
  simp only [BitVec.toNat_ofNat, Config.ctWords]
  omega

theorem genTick_inv (hs : Inv s) (hp : s.phase = .gen) : Inv (genTick s) := by
  obtain ⟨harch, hphase⟩ := hs
  simp only [PhaseInv, hp] at hphase
  obtain ⟨hf, ⟨hrx, htx, hvals⟩, hdec, hg, k, hk, hregs, hholds⟩ := hphase
  rw [genLoop_regs] at hregs
  have hnext := genIter_genRegsAt_constant hk s.ct
  have harch' := harch.loadGen hg (genRegsAt (k + 1)) (generatedIndex_lt hk) (ctConstantWord (generatedIndex k))
  have hholds' := HoldsGenerated.write (k := k) hholds
  unfold genTick
  simp only [hregs, hnext, genRegsAt_last_iff hk]
  split
  · next hlast =>
    rw [hlast] at hholds'
    exact Answers.inv ⟨harch'.setGenerated hholds'.ctIsConstant, hrx, hvals⟩
  · next hlast =>
    refine ⟨harch', ?_⟩
    simp only [PhaseInv, State.loadGen_phase, hp]
    exact ⟨hf, ⟨hrx, htx, hvals⟩, hdec, hg, k + 1, lt_of_le_of_ne hk hlast, (genLoop_regs _ _).symm, hholds'⟩

/-- One more POS, below a 32-bit bound. -/
theorem toNat_succ_of_lt {x y : Word} (h : x.toNat < y.toNat) : (x + 1#32).toNat = x.toNat + 1 := by
  have hy := y.isLt
  rw [BitVec.toNat_add, BitVec.toNat_ofNat]
  omega

theorem clearTick_inv (hs : Inv s) (hp : s.phase = .clear) : Inv (clearTick s) := by
  obtain ⟨harch, hphase⟩ := hs
  simp only [PhaseInv, hp] at hphase
  obtain ⟨hf, ⟨hrx, htx, hvals⟩, tid, hdec, hcheck, hsizeOk, hsize, hlen, hpos, hempty⟩ := hphase
  obtain ⟨hlt, hfree⟩ := (needFree_eq_none tid s).1 hcheck
  have hsucc := toNat_succ_of_lt hpos
  have hok : ContextOk s.slotDepth
      { s.table tid with slots := slotWrite (s.table tid).slots s.cur.pos.toNat none } :=
    ⟨slotWrite_wf (ArchInv.contextOk harch hlt).1 s.cur.pos.toNat none, fun hv => absurd (hfree.symm.trans hv) nofun⟩
  have hrun : Running s := ⟨harch, hf, hrx, htx, hvals⟩
  have hrun' := (hrun.setTable tid hok).congr
    (t := (s.setTable tid { s.table tid with slots := slotWrite (s.table tid).slots s.cur.pos.toNat none }).loadPos
      (s.cur.pos + 1#32)) ⟨rfl, rfl, rfl, rfl, rfl, rfl, rfl⟩ rfl rfl rfl
  have htable := State.setTable_table_same s tid
    { s.table tid with slots := slotWrite (s.table tid).slots s.cur.pos.toNat none } hlt
  have hempty' : ∀ i < s.cur.pos.toNat + 1, slotRead (slotWrite (s.table tid).slots s.cur.pos.toNat none) i = none := by
    intro i hi
    rw [slotRead_slotWrite]
    split
    · rfl
    · exact hempty i (by omega)
  unfold clearTick
  rw [hdec]
  dsimp only
  split
  · next hlast =>
    have hend : s.cur.pos.toNat + 1 = s.arg.toNat := hsucc.symm.trans (congrArg BitVec.toNat hlast)
    refine (createExit_answers hrun' (by simpa using hlt) ?_ ?_ ?_).inv
    all_goals rw [State.loadPos_table, htable]
    · exact hsize ▸ hsizeOk
    · exact hlen
    · intro i hi
      exact hempty' i (by rw [hend, ← hsize]; exact hi)
  · next hlast =>
    have hne : s.cur.pos.toNat + 1 ≠ s.arg.toNat := fun h => hlast (BitVec.eq_of_toNat_eq (hsucc.trans h))
    refine ⟨hrun'.arch, ?_⟩
    simp only [PhaseInv, State.loadPos_phase, State.setTable_phase, hp]
    refine ⟨hf, ⟨hrx, htx, hvals⟩, tid, hdec, ?_, hsizeOk, ?_, ?_, ?_, ?_⟩
    · refine (needFree_eq_none tid _).2 ⟨by simpa using hlt, ?_⟩
      rw [State.loadPos_table, htable]
      exact hfree
    · rw [State.loadPos_table, htable]
      exact hsize
    · rw [State.loadPos_table, htable]
      exact hlen
    · exact hsucc.trans_lt (by simp only [State.loadPos_arg, State.setTable_arg]; omega)
    · rw [State.loadPos_table, htable]
      exact fun i hi => hempty' i (by rw [← hsucc]; exact hi)

/-- One iteration of the scan PUT, GET and DEL share, by what their exits do. -/
theorem probeIter_inv {tid : TableId} {stops : Option Bucket → Bool} {exit : Option (Option Bucket) → State → Result}
    (hs : Inv s) (hp : s.phase = .probe) (hdec : decodeHeader s.opc = .ok h)
    (hh : h = .put tid ∨ h = .get tid ∨ h = .del tid)
    (hnone : ∀ cur, cur.pos.toNat < (s.table tid).size.toNat → Answers (exit none (s.loadCursor cur)))
    (hsome : ∀ r, stops r = true → slotRead (s.table tid).slots s.cur.pos.toNat = r → Answers (exit (some r) s)) :
    Inv (probeIter tid stops exit s) := by
  obtain ⟨harch, hphase⟩ := hs
  simp only [PhaseInv, hp] at hphase
  obtain ⟨hf, hquiet, h', tid', hdec', hh', hcheck, hpos, hcnt⟩ := hphase
  obtain rfl : h' = h := by rw [hdec] at hdec'; exact (Except.ok.inj hdec').symm
  obtain rfl : tid = tid' := by
    obtain rfl | rfl | rfl := hh
    all_goals simpa using hh'
  have hsucc := toNat_succ_of_lt hcnt
  have hsize : 0 < (s.table tid).size.toNat := Nat.zero_lt_of_lt hpos
  have hpos' : (cursorAdvance (s.table tid).size s.cur).pos.toNat < (s.table tid).size.toNat := by
    have hlt := Nat.mod_lt (s.cur.pos.toNat + 1) hsize
    have hbound := (s.table tid).size.isLt
    rw [cursorAdvance, BitVec.toNat_ofNat, Nat.mod_eq_of_lt (by omega)]
    exact hlt
  simp only [probeIter]
  split
  · next hturn => exact absurd hturn (by rw [BitVec.le_def]; omega)
  · split
    · next hstop => exact (hsome _ hstop rfl).inv
    · split
      · exact (hnone _ hpos').inv
      · next hmore =>
        refine ⟨harch.of_sameArch ⟨rfl, rfl, rfl, rfl, rfl, rfl, rfl⟩, ?_⟩
        simp only [PhaseInv, State.loadCursor_phase, hp]
        refine ⟨hf, hquiet, h', tid, hdec, hh', Running.headerCheck_eq hcheck rfl rfl, hpos', ?_⟩
        have hne : s.cur.cnt.toNat + 1 ≠ (s.table tid).size.toNat := fun h =>
          hmore (BitVec.eq_of_toNat_eq (hsucc.trans h))
        exact hsucc.trans_lt (by simp only [State.loadCursor_table]; omega)

theorem probeTick_inv (hs : Inv s) (hp : s.phase = .probe) : Inv (probeTick s) := by
  have hphase := hs.2
  simp only [PhaseInv, hp] at hphase
  obtain ⟨hf, ⟨hrx, htx, hvals⟩, h, tid, hdec, hh, hcheck, hpos, -⟩ := hphase
  have hrun : Running s := ⟨hs.1, hf, hrx, htx, hvals⟩
  have hrun' : ∀ cur, Running (s.loadCursor cur) := fun cur =>
    hrun.congr ⟨rfl, rfl, rfl, rfl, rfl, rfl, rfl⟩ rfl rfl rfl
  have hlive : s.live tid = true := by
    obtain rfl | rfl | rfl := hh
    all_goals exact ((needGenerated_or_needLive_eq_none tid s).1 hcheck).2
  have hok := ArchInv.tableOk hs.1 hlive
  have hok' : ∀ cur, TableOk (s.loadCursor cur) tid := fun cur => ⟨hok.lt_ntab, hok.context⟩
  unfold probeTick
  rw [hdec]
  obtain rfl | rfl | rfl := hh
  · refine probeIter_inv hs hp hdec (.inl rfl) (fun cur hcur => putExit_answers (hrun' cur) (hok' cur) hcur nofun)
      fun r hstop hr => putExit_answers hrun hok hpos fun _ _ => ?_
    rw [hr, (stopsPut_iff r).1 hstop]
  · exact probeIter_inv hs hp hdec (.inr (.inl rfl)) (fun cur _ => getExit_answers (hrun' cur) none)
      fun r _ _ => getExit_answers hrun (some r)
  · refine probeIter_inv hs hp hdec (.inr (.inr rfl)) (fun cur hcur => delExit_answers (hrun' cur) (hok' cur) hcur nofun)
      fun r _ hr => delExit_answers hrun hok hpos fun b hb => ?_
    rw [hr, Option.some.inj hb]

theorem relTick_inv (hs : Inv s) (hp : s.phase = .rel) : Inv (relTick s) := by
  obtain ⟨harch, hphase⟩ := hs
  simp only [PhaseInv, hp] at hphase
  obtain ⟨hf, hrx, htx, tid, cb, hdec, hcheck, hpos⟩ := hphase
  have hsucc := toNat_succ_of_lt hpos
  have harch' : ∀ pos vals, ArchInv ((s.loadPos pos).loadVals vals) := fun pos vals =>
    harch.of_sameArch ⟨rfl, rfl, rfl, rfl, rfl, rfl, rfl⟩
  unfold relTick
  rw [hdec]
  dsimp only
  split
  · exact (releaseExit_answers harch hrx).inv
  · split
    · refine (releaseExit_answers (harch' _ _) ?_).inv
      exact hrx
    · next hmore =>
      refine ⟨harch' _ _, ?_⟩
      simp only [PhaseInv, State.loadVals_phase, State.loadPos_phase, hp]
      refine ⟨hf, hrx, htx, tid, cb, hdec, Running.headerCheck_eq hcheck rfl rfl, ?_⟩
      have hne : s.cur.pos.toNat + 1 ≠ (s.table tid).size.toNat := fun h =>
        hmore (BitVec.eq_of_toNat_eq (hsucc.trans h))
      exact hsucc.trans_lt (by simp only [State.loadVals_table, State.loadPos_table]; omega)

/-! ## Sending -/

theorem rest_inv (harch : ArchInv s) (hquiet : QuietRegs s) (hp : s.phase = restPhase s) : Inv s := by
  refine ⟨harch, ?_⟩
  cases hf : s.fault with
  | true =>
    simp only [PhaseInv, hp, restPhase, hf, if_true]
    exact ⟨trivial, hquiet⟩
  | false =>
    simp only [PhaseInv, hp, restPhase, hf, Bool.false_eq_true, if_false]
    exact ⟨trivial, hquiet⟩

theorem respTick_inv (hs : Inv s) (hp : s.phase = .resp) : Inv (respTick s) := by
  obtain ⟨harch, hphase⟩ := hs
  simp only [PhaseInv, hp] at hphase
  obtain ⟨hrx, hvals, htx⟩ := hphase
  obtain ⟨b, rest, hbytes⟩ := List.exists_cons_of_ne_nil htx
  unfold respTick
  rw [hbytes]
  cases rest with
  | nil => exact rest_inv (harch.of_sameArch ⟨rfl, rfl, rfl, rfl, rfl, rfl, rfl⟩) ⟨hrx, rfl, hvals⟩ rfl
  | cons b' rest =>
    refine ⟨harch.of_sameArch ⟨rfl, rfl, rfl, rfl, rfl, rfl, rfl⟩, ?_⟩
    simp only [PhaseInv, hp]
    exact ⟨hrx, hvals, List.cons_ne_nil _ _⟩

/-! ## One clock edge -/

theorem tick_inv (p : Pins) (hs : Inv s) : Inv (tick p s) := by
  cases hrst : p.rst with
  | true =>
    obtain ⟨hlegal, -⟩ := hs.1
    obtain ⟨harch, hphase⟩ := resetWith_inv hlegal
    rw [tick_of_rst hrst]
    exact ⟨harch, hphase⟩
  | false =>
    have hphase := hs.2
    unfold tick
    simp only [hrst, Bool.false_eq_true, if_false]
    split
    case h_1 hp =>
      simp only [PhaseInv, hp] at hphase
      obtain ⟨hf, -, htx, hvals⟩ := hphase
      split
      · exact receiveHeaderByte_inv hs.1 hf htx hvals _
      · exact hs
    case h_2 hp =>
      simp only [PhaseInv, hp] at hphase
      obtain ⟨hf, htx, hvals, -⟩ := hphase
      split
      · exact receiveHeaderByte_inv hs.1 hf htx hvals _
      · exact hs
    case h_3 hp => split <;> [exact receiveArgByte_inv hs hp _; exact hs]
    case h_4 hp => split <;> [exact receiveKeyByte_inv hs hp _; exact hs]
    case h_5 hp => exact genTick_inv hs hp
    case h_6 hp => exact clearTick_inv hs hp
    case h_7 hp => exact probeTick_inv hs hp
    case h_8 hp => exact relTick_inv hs hp
    case h_9 hp => split <;> [exact respTick_inv hs hp; exact hs]
    case h_10 => exact hs

/-- Settles O52: phase by phase. -/
theorem everyTickKeepsInv : Obligations.EveryTickKeepsInv := fun p _ hs => tick_inv p hs

end Sys2Proof.Machine
end

-- ==== The controller with a host that follows the protocol (`spec/43_controller.md` R222, R225) ====
section
namespace Sys2Proof.Machine

variable {s t : State} {h : Header} {b : Byte} {bs : List Byte} {r : Result}

theorem advanceMany_add (m n : Nat) (s : State) : advanceMany (m + n) s = advanceMany n (advanceMany m s) := by
  induction m generalizing s with
  | zero => rw [Nat.zero_add]; rfl
  | succ m ih => rw [Nat.succ_add]; exact ih (advance s)

theorem advanceMany_one (s : State) : advanceMany 1 s = advance s := rfl

/-! ## One tick of each phase -/

/-- The host has a byte and the block takes it (R222). -/
theorem hostPins_of_cmd (hcmd : s.cmd = b :: bs) : hostPins s = ⟨false, true, b, true⟩ := by
  simp [hostPins, hcmd]

theorem advance_of_header (hp : s.phase = .idle ∨ s.phase = .recvH) (hcmd : s.cmd = b :: bs) :
    advance s = (receiveHeaderByte b s).accept bs := by
  obtain hp | hp := hp
  all_goals simp [advance, hostPins_of_cmd hcmd, tick, cmdReady, hp, hcmd, State.accept]

theorem advance_of_arg (hp : s.phase = .recvA) (hcmd : s.cmd = b :: bs) :
    advance s = (receiveArgByte b s).accept bs := by
  simp [advance, hostPins_of_cmd hcmd, tick, cmdReady, hp, hcmd, State.accept]

theorem advance_of_key (hp : s.phase = .key) (hcmd : s.cmd = b :: bs) :
    advance s = (receiveKeyByte b s).accept bs := by
  simp [advance, hostPins_of_cmd hcmd, tick, cmdReady, hp, hcmd, State.accept]

theorem advance_of_gen (hp : s.phase = .gen) : advance s = genTick s := by
  simp [advance, tick, cmdReady, hp, hostPins]

theorem advance_of_clear (hp : s.phase = .clear) : advance s = clearTick s := by
  simp [advance, tick, cmdReady, hp, hostPins]

theorem advance_of_probe (hp : s.phase = .probe) : advance s = probeTick s := by
  simp [advance, tick, cmdReady, hp, hostPins]

theorem advance_of_rel (hp : s.phase = .rel) : advance s = relTick s := by
  simp [advance, tick, cmdReady, hp, hostPins]

theorem advance_of_resp (hp : s.phase = .resp) : advance s = respTick s := by
  simp [advance, tick, cmdReady, hp, hostPins]

/-! ## Sending a response -/

/-- The host takes the bytes one by one; after the last the block rests (R225). -/
theorem advanceMany_of_resp (hp : s.phase = .resp) (htx : s.tx ≠ []) :
    advanceMany s.tx.length s = { s with rsp := s.rsp ++ s.tx, tx := [], phase := restPhase s } := by
  generalize hbytes : s.tx = bytes at htx ⊢
  induction bytes generalizing s with
  | nil => exact absurd rfl htx
  | cons b bytes ih =>
    rw [List.length_cons, advanceMany, advance_of_resp hp]
    cases bytes with
    | nil => rw [respTick, hbytes]; rfl
    | cons b' bytes =>
      have htick : respTick s = { s with rsp := s.rsp ++ [b], tx := b' :: bytes } := by rw [respTick, hbytes]
      rw [htick]
      refine (ih (s := { s with rsp := s.rsp ++ [b], tx := b' :: bytes }) hp rfl (List.cons_ne_nil _ _)).trans ?_
      simp [restPhase]

/-- From the phase in which a command offers its response to the end of the command. -/
theorem advanceMany_offer (r : Result) : advanceMany r.2.bytes.length (offer r) = emit r :=
  advanceMany_of_resp (s := offer r) rfl (Response.bytes_ne_nil r.2)

/-! ## Receiving a word -/

/-- A header byte has come: the controller is in RECV_H. -/
def State.withHeaderBytes (s : State) (opc : Word) (rx : BitVec 2) (cmd : List Byte) : State :=
  { s with opc := opc, rx := rx, cmd := cmd, phase := .recvH }

/-- ARG is being received. -/
def State.withArgBytes (s : State) (arg : Word) (rx : BitVec 2) (cmd : List Byte) : State :=
  { s with arg := arg, rx := rx, cmd := cmd, phase := .recvA }

theorem generateBody_of_done (hg : s.genDone = true) : generateBody s = (s, okResponse 0#32) := if_pos hg

theorem lenBody_accept (tid : TableId) (s : State) (bs : List Byte) :
    lenBody tid (s.accept bs) = ((lenBody tid s).1.accept bs, (lenBody tid s).2) := by
  cases hl : s.live tid <;> simp [lenBody, hl]

/-- What follows the header does not read the command channel. -/
theorem headerDone_accept (s : State) (bs : List Byte) : headerDone (s.accept bs) = (headerDone s).accept bs := by
  unfold headerDone
  rw [State.accept_opc]
  cases decodeHeader s.opc with
  | error => rfl
  | ok h =>
    have hcheck : headerCheck h (s.accept bs) = headerCheck h s := headerCheck_congr h rfl rfl
    simp only [hcheck]
    cases headerCheck h s with
    | some c => rfl
    | none =>
      cases h with
      | generate =>
        cases hg : s.genDone with
        | true => simp only [State.accept_genDone, hg, if_true, generateBody_of_done (s := s.accept bs) hg,
            generateBody_of_done hg]; rfl
        | false => simp only [State.accept_genDone, hg, Bool.false_eq_true, if_false]; rfl
      | len tid => simp only [lenBody_accept]; rfl
      | _ => rfl

theorem getindexExit_accept (tid : TableId) (s : State) (bs : List Byte) :
    getindexExit tid (s.accept bs) = ((getindexExit tid s).1.accept bs, (getindexExit tid s).2) := by
  cases hr : idxOutOfRange s.arg (s.table tid).size with
  | true => simp [getindexExit, hr]
  | false => cases hb : slotRead (s.table tid).slots s.arg.toNat <;> simp [getindexExit, hr, hb]

theorem argDone_accept (s : State) (bs : List Byte) : argDone (s.accept bs) = (argDone s).accept bs := by
  unfold argDone
  rw [State.accept_opc]
  split
  · simp only [State.accept_slotDepth, State.accept_arg]
    split <;> rfl
  · rfl
  · rw [getindexExit_accept]
    rfl
  · rfl

theorem advance_headerBytes {opc : Word} {rx : BitVec 2} (hrx : rx ≠ 3#2) :
    advance (s.withHeaderBytes opc rx (b :: bs)) = s.withHeaderBytes (setByte opc rx b) (rx + 1#2) bs := by
  rw [advance_of_header (.inr rfl) rfl, receiveHeaderByte]
  exact congrArg (State.accept · bs) (if_neg hrx)

theorem advance_argBytes {arg : Word} {rx : BitVec 2} (hrx : rx ≠ 3#2) :
    advance (s.withArgBytes arg rx (b :: bs)) = s.withArgBytes (setByte arg rx b) (rx + 1#2) bs := by
  rw [advance_of_arg rfl rfl, receiveArgByte]
  exact congrArg (State.accept · bs) (if_neg hrx)

theorem advance_last_headerByte (s : State) (opc : Word) (b : Byte) (bs : List Byte) :
    advance (s.withHeaderBytes opc 3#2 (b :: bs)) = headerDone (s.withHeaderBytes (setByte opc 3#2 b) 0#2 bs) := by
  have hdone : receiveHeaderByte b (s.withHeaderBytes opc 3#2 (b :: bs)) =
      headerDone (s.withHeaderBytes (setByte opc 3#2 b) 0#2 (b :: bs)) := by
    simp [receiveHeaderByte, State.withHeaderBytes]
  rw [advance_of_header (.inr rfl) rfl, hdone, ← headerDone_accept]
  rfl

theorem advance_last_argByte (s : State) (arg : Word) (b : Byte) (bs : List Byte) :
    advance (s.withArgBytes arg 3#2 (b :: bs)) = argDone (s.withArgBytes (setByte arg 3#2 b) 0#2 bs) := by
  have hdone : receiveArgByte b (s.withArgBytes arg 3#2 (b :: bs)) =
      argDone (s.withArgBytes (setByte arg 3#2 b) 0#2 (b :: bs)) := by
    simp [receiveArgByte, State.withArgBytes]
  rw [advance_of_arg rfl rfl, hdone, ← argDone_accept]
  rfl

/-- Four bytes make the header word, whatever OPC held before (R225). -/
theorem advanceMany_header (hs : Ready s) {w : Word} (hcmd : s.cmd = bytesOfWord w ++ bs) :
    advanceMany 4 s = headerDone (({ s with opc := w }.enter .recvH).accept bs) := by
  obtain ⟨hp, -, hrx, -, -⟩ := hs
  have hfirst : advance s = s.withHeaderBytes (setByte s.opc 0#2 (w.extractLsb' 0 8)) 1#2
      (w.extractLsb' 8 8 :: w.extractLsb' 16 8 :: w.extractLsb' 24 8 :: bs) := by
    rw [advance_of_header (.inl hp) hcmd, receiveHeaderByte, hrx]
    rfl
  have hlast : s.withHeaderBytes w 0#2 bs = ({ s with opc := w }.enter .recvH).accept bs := by
    rw [State.withHeaderBytes, ← hrx]
    rfl
  simp only [advanceMany]
  rw [hfirst, advance_headerBytes (by decide), advance_headerBytes (by decide), ← hlast]
  refine (advance_last_headerByte s _ _ _).trans ?_
  exact congrArg (fun v => headerDone (s.withHeaderBytes v 0#2 bs))
    ((setByte_four s.opc _ _ _ _).trans (wordOfBytes_bytesOfWord w))

/-- Four bytes make the argument word, whatever ARG held before (R225). -/
theorem advanceMany_arg (hrx : s.rx = 0#2) (a : Word) (bs : List Byte) :
    advanceMany 4 ((s.enter .recvA).accept (bytesOfWord a ++ bs)) =
      argDone (((s.loadArg a).enter .recvA).accept bs) := by
  have hfirst : (s.enter .recvA).accept (bytesOfWord a ++ bs) = s.withArgBytes s.arg 0#2 (a.extractLsb' 0 8 ::
      a.extractLsb' 8 8 :: a.extractLsb' 16 8 :: a.extractLsb' 24 8 :: bs) := by
    rw [State.withArgBytes, ← hrx]
    rfl
  have hlast : s.withArgBytes a 0#2 bs = ((s.loadArg a).enter .recvA).accept bs := by
    rw [State.withArgBytes, ← hrx]
    rfl
  rw [hfirst]
  simp only [advanceMany]
  rw [advance_argBytes (by decide), advance_argBytes (by decide), advance_argBytes (by decide), ← hlast]
  refine (advance_last_argByte s _ _ _).trans ?_
  exact congrArg (fun v => argDone (s.withArgBytes v 0#2 bs))
    ((setByte_four s.arg _ _ _ _).trans (wordOfBytes_bytesOfWord a))

/-! ## Receiving a key (R228) -/

/-- A key byte drives all three lanes of PUT, GET and DEL. -/
theorem advance_lanes_byte (hdec : ∀ ch, decodeHeader s.opc ≠ .ok (.hash ch)) (hb : b ≠ 0#8) (l : Lanes)
    (bs : List Byte) :
    advance (((s.loadLanes l).enter .key).accept (b :: bs)) =
      ((s.loadLanes (lanesStep s.ct l b)).enter .key).accept bs := by
  rw [advance_of_key rfl rfl, receiveKeyByte, if_neg hb]
  split
  · next ch hch => exact absurd hch (hdec ch)
  · rfl

theorem advanceMany_lanes (hdec : ∀ ch, decodeHeader s.opc ≠ .ok (.hash ch)) {key : Key} (hwf : keyWf key = true)
    (l : Lanes) (bs : List Byte) :
    advanceMany key.length (((s.loadLanes l).enter .key).accept (key ++ bs)) =
      ((s.loadLanes (key.foldl (lanesStep s.ct) l)).enter .key).accept bs := by
  induction key generalizing l with
  | nil => rfl
  | cons b key ih =>
    obtain ⟨hb, hwf⟩ := (keyWf_cons b key).1 hwf
    rw [List.length_cons, advanceMany, List.cons_append, advance_lanes_byte hdec hb, ih hwf]
    rfl

theorem Lanes.get_set (l : Lanes) (ch : Channel) (x : Lane) : (l.set ch x).get ch = x := by
  cases ch <;> rfl

theorem Lanes.set_set (l : Lanes) (ch : Channel) (x y : Lane) : (l.set ch x).set ch y = l.set ch y := by
  cases ch <;> rfl

/-- A key byte drives the one lane of HASH. -/
theorem advance_lane_byte {ch : Channel} (hdec : decodeHeader s.opc = .ok (.hash ch)) (hb : b ≠ 0#8) (l : Lanes)
    (x : Lane) (bs : List Byte) :
    advance (((s.loadLanes (l.set ch x)).enter .key).accept (b :: bs)) =
      ((s.loadLanes (l.set ch (laneStep s.ct ch x b))).enter .key).accept bs := by
  have hdec' : decodeHeader (((s.loadLanes (l.set ch x)).enter .key).accept (b :: bs)).opc = .ok (.hash ch) := hdec
  rw [advance_of_key rfl rfl, receiveKeyByte, if_neg hb, hdec']
  simp only [State.accept_lanes, State.enter_lanes, State.loadLanes_lanes, Lanes.get_set, Lanes.set_set]
  rfl

theorem advanceMany_lane {ch : Channel} (hdec : decodeHeader s.opc = .ok (.hash ch)) {key : Key}
    (hwf : keyWf key = true) (l : Lanes) (x : Lane) (bs : List Byte) :
    advanceMany key.length (((s.loadLanes (l.set ch x)).enter .key).accept (key ++ bs)) =
      ((s.loadLanes (l.set ch (key.foldl (laneStep s.ct ch) x))).enter .key).accept bs := by
  induction key generalizing x with
  | nil => rfl
  | cons b key ih =>
    obtain ⟨hb, hwf⟩ := (keyWf_cons b key).1 hwf
    rw [List.length_cons, advanceMany, List.cons_append, advance_lane_byte hdec hb, ih hwf]
    rfl

/-- The zero byte ends the key. -/
theorem advance_key_end (hp : s.phase = .key) (hcmd : s.cmd = 0#8 :: bs) : advance s = (keyDone s).accept bs := by
  rw [advance_of_key hp hcmd, receiveKeyByte, if_pos rfl]

/-! ## The controller rejects an illegal header (R226) -/

theorem headerDone_of_illegal {w : Word} {why : IllegalHeader} (hopc : s.opc = w) (hw : decodeHeader w = .error why) :
    headerDone s = offer (raiseFault .illegal s) := by
  rw [headerDone, hopc, hw]

theorem advanceMany_offer_fault (c : Cause) (s : State) : advanceMany 8 (offer (raiseFault c s)) = s.die c := by
  have hlength : (raiseFault c s).2.bytes.length = 8 := by simp [Response.bytes, bytesOfWord]
  rw [← emit_raiseFault, ← advanceMany_offer, hlength]

/-- The fault leaves nothing of the phase it was raised in. -/
theorem die_enter_accept (c : Cause) (p : Phase) (s : State) (bs : List Byte) :
    ((s.enter p).accept bs).die c = (s.die c).accept bs := rfl

/-- Settles O54: four received bytes lead to the offer of the fault's response, eight sent bytes to DEAD. -/
theorem controllerRejectsIllegalHeader : Obligations.ControllerRejectsIllegalHeader := by
  intro w why rest s hs hcmd hw
  have hopc : (({ s with opc := w }.enter .recvH).accept rest).opc = w := rfl
  have hrun : advanceMany 12 s = ({ s with opc := w }.die .illegal).accept rest := by
    rw [advanceMany_add 4 8, advanceMany_header hs hcmd, headerDone_of_illegal hopc hw, advanceMany_offer_fault,
      die_enter_accept]
  obtain ⟨hp, hf, -⟩ := hs
  rw [hrun]
  exact ⟨step_of_illegal_header hp hf hcmd hw, rfl⟩

end Sys2Proof.Machine
end

-- ==== The loops of the controller (`spec/43_controller.md` R227 to R232) ====
section
namespace Sys2Proof.Machine

variable {s t : State} {r : Result} {tid : TableId} {k n : Nat}

/-! ## How soon a command offers its response -/

/-- Within `n` ticks the controller enters RESP with the response `r` (R225). -/
def Offers (n : Nat) (s : State) (r : Result) : Prop := ∃ m ≤ n, advanceMany m s = offer r

theorem Offers.now (h : s = offer r) : Offers n s r := ⟨0, Nat.zero_le n, h⟩

theorem Offers.after (hrun : advanceMany k s = t) (h : Offers n t r) : Offers (k + n) s r := by
  obtain ⟨m, hm, hr⟩ := h
  exact ⟨k + m, Nat.add_le_add_left hm k, by rw [advanceMany_add, hrun, hr]⟩

theorem Offers.tick (htick : advance s = t) (h : Offers n t r) : Offers (n + 1) s r :=
  Nat.add_comm 1 n ▸ h.after htick

theorem Offers.mono (h : Offers k s r) (hle : k ≤ n) : Offers n s r := by
  obtain ⟨m, hm, hr⟩ := h
  exact ⟨m, hm.trans hle, hr⟩

/-! ## GEN (R227) -/

theorem advance_gen_of_more {x : GenRegs × Memory Word} (hmore : ¬ (x.1.i1 = 255#8 ∧ x.1.pass = 4#3)) :
    advance ((s.loadGen x).enter .gen) = (s.loadGen (genIter x)).enter .gen := by
  rw [advance_of_gen rfl, genTick]
  exact if_neg hmore

theorem advance_gen_of_last {x : GenRegs × Memory Word} (hlast : x.1.i1 = 255#8 ∧ x.1.pass = 4#3) :
    advance ((s.loadGen x).enter .gen) = offer ((s.loadGen (genIter x)).setGenerated, okResponse 0#32) := by
  rw [advance_of_gen rfl, genTick]
  exact if_pos hlast

theorem advanceMany_gen (s : State) (hk : k < Config.ctWords) :
    advanceMany k ((s.loadGen (genRegsInit, s.ct)).enter .gen) =
      (s.loadGen (genLoop k (genRegsInit, s.ct))).enter .gen := by
  induction k with
  | zero => rfl
  | succ k ih =>
    have hk' := Nat.lt_of_succ_lt hk
    have hmore := (not_congr (genRegsAt_last_iff hk')).2 hk.ne
    rw [← genLoop_regs k s.ct] at hmore
    rw [advanceMany_add k 1, ih hk', genLoop_succ]
    exact advance_gen_of_more hmore

theorem offers_gen (hg : s.genDone = false) :
    Offers Config.ctWords ((s.loadGen (genRegsInit, s.ct)).enter .gen) (generateBody s) := by
  obtain ⟨k, hk⟩ : ∃ k, k + 1 = Config.ctWords := ⟨1279, rfl⟩
  have hk' : k < Config.ctWords := hk ▸ Nat.lt_succ_self k
  have hlast := (genRegsAt_last_iff hk').2 hk
  rw [← genLoop_regs k s.ct] at hlast
  have hbody : generateBody s = (runGeneration s, okResponse 0#32) := if_neg (by simp [hg])
  rw [hbody, runGeneration, ← hk, genLoop_succ]
  exact (Offers.tick (n := 0) (advance_gen_of_last hlast) (.now rfl)).after (advanceMany_gen s hk')

/-! ## CLEAR (R229) -/

/-- The scan of CREATE before slot `k`: the slots below are empty. -/
def State.clearing (s : State) (tid : TableId) (c : Context) (k : Nat) : State :=
  (s.setTable tid { c with slots := Memory.clearBelow c.slots k }).loadPos (BitVec.ofNat 32 k)

theorem Memory.clearBelow_zero {α : Type} (m : Memory α) : Memory.clearBelow m 0 = m := by
  simp [Memory.clearBelow]

theorem Memory.erase_clearBelow {α : Type} (m : Memory α) (k : Nat) :
    Memory.erase (Memory.clearBelow m k) k = Memory.clearBelow m (k + 1) := by
  rw [Memory.erase, Memory.clearBelow, Memory.clearBelow, List.filter_filter]
  refine List.filter_congr fun c _ => ?_
  rw [Bool.eq_iff_iff]
  simp only [bne_iff_ne, Bool.and_eq_true, decide_eq_true_eq]
  omega

theorem clearEntry_eq_clearing (tid : TableId) (s : State) :
    clearEntry tid s = s.clearing tid { s.table tid with size := s.arg, len := 0#32 } 0 := by
  rw [State.clearing, Memory.clearBelow_zero]
  rfl

theorem State.clearing_table {c : Context} (hlt : tid.toNat < s.ntab) :
    (s.clearing tid c k).table tid = { c with slots := Memory.clearBelow c.slots k } := by
  rw [State.clearing, State.loadPos_table, State.setTable_table_same s tid _ hlt]

/-- Emptying the slot at POS takes the scan on by one. -/
theorem State.clearing_succ (s : State) (tid : TableId) (c : Context) (hk : k < 2 ^ 32) :
    ((s.clearing tid c k).setTable tid
        { c with slots := slotWrite (Memory.clearBelow c.slots k) (s.clearing tid c k).cur.pos.toNat none }).loadPos
        ((s.clearing tid c k).cur.pos + 1#32) = s.clearing tid c (k + 1) := by
  have hpos : (s.clearing tid c k).cur.pos = BitVec.ofNat 32 k := rfl
  rw [hpos, BitVec.toNat_ofNat, Nat.mod_eq_of_lt hk, slotWrite, Memory.erase_clearBelow,
    ← BitVec.ofNat_add, State.clearing, ← State.setTable_loadPos, State.setTable_setTable, State.loadPos_loadPos, State.clearing]

theorem advance_clear {c : Context} (hdec : decodeHeader s.opc = .ok (.create tid)) (hlt : tid.toNat < s.ntab)
    (hk : k < 2 ^ 32) :
    advance ((s.clearing tid c k).enter .clear) =
      if BitVec.ofNat 32 (k + 1) = s.arg then offer (createExit tid (s.clearing tid c (k + 1)))
      else (s.clearing tid c (k + 1)).enter .clear := by
  have hopc : ((s.clearing tid c k).enter .clear).opc = s.opc := rfl
  have harg : ((s.clearing tid c k).enter .clear).arg = s.arg := rfl
  have hpos : (s.clearing tid c k).cur.pos + 1#32 = BitVec.ofNat 32 (k + 1) := (BitVec.ofNat_add k 1).symm
  have hnext := State.clearing_succ s tid c hk
  rw [advance_of_clear rfl, clearTick, hopc, hdec]
  simp only [State.enter_table, State.clearing_table hlt, State.enter_cur, harg, hpos] at hnext ⊢
  rw [← hnext]
  generalize s.clearing tid c k = u
  rfl

/-- The scan empties every slot below SIZE in as many ticks. -/
theorem offers_clear {c : Context} (hdec : decodeHeader s.opc = .ok (.create tid)) (hlt : tid.toNat < s.ntab)
    (hk : k < s.arg.toNat) :
    Offers (s.arg.toNat - k) ((s.clearing tid c k).enter .clear) (createExit tid (s.clearing tid c s.arg.toNat)) := by
  have hbound := s.arg.isLt
  generalize hn : s.arg.toNat - k = n
  induction n generalizing k with
  | zero => omega
  | succ n ih =>
    have htick := advance_clear (c := c) hdec hlt (k := k) (by omega)
    by_cases hlast : k + 1 = s.arg.toNat
    · rw [hlast, BitVec.ofNat_toNat, BitVec.setWidth_eq, if_pos rfl] at htick
      exact (Offers.now (n := n) rfl).tick htick
    · have hmore : BitVec.ofNat 32 (k + 1) ≠ s.arg := fun h => by
        have := congrArg BitVec.toNat h
        rw [BitVec.toNat_ofNat] at this
        omega
      rw [if_neg hmore] at htick
      exact (ih (by omega) (by omega)).tick htick

/-! ## PROBE (R230) -/

/-- The exits do not read the phase, and the controller is in RESP after them. -/
theorem offer_putExit_enter (tid : TableId) (found : Option (Option Bucket)) (s : State) (p : Phase) :
    offer (putExit tid found (s.enter p)) = offer (putExit tid found s) := by
  cases found <;> rfl

theorem offer_getExit_enter (found : Option (Option Bucket)) (s : State) (p : Phase) :
    offer (getExit found (s.enter p)) = offer (getExit found s) := by
  obtain _ | _ | _ := found <;> rfl

theorem offer_delExit_enter (tid : TableId) (found : Option (Option Bucket)) (s : State) (p : Phase) :
    offer (delExit tid found (s.enter p)) = offer (delExit tid found s) := by
  obtain _ | _ | _ := found <;> rfl

section
variable {stops : Option Bucket → Bool} {exit : Option (Option Bucket) → State → Result} {c : Cursor}

/-- Phase PROBE of a command that looks for `stops` in table `tid` and ends in `exit`. -/
structure Probes (s : State) (tid : TableId) (stops : Option Bucket → Bool)
    (exit : Option (Option Bucket) → State → Result) : Prop where
  tick : ∀ c, advance ((s.loadCursor c).enter .probe) = probeIter tid stops exit ((s.loadCursor c).enter .probe)
  exit : ∀ found (u : State), offer (exit found (u.enter .probe)) = offer (exit found u)

theorem Probes.offers_wrapped (h : Probes s tid stops exit) (hcnt : (s.table tid).size ≤ c.cnt) :
    Offers 1 ((s.loadCursor c).enter .probe) (exit none (s.loadCursor c)) := by
  refine (Offers.now (n := 0) ?_).tick (h.tick c)
  rw [← h.exit, probeIter]
  exact if_pos hcnt

theorem Probes.offers_stopped (h : Probes s tid stops exit) (hcnt : ¬ (s.table tid).size ≤ c.cnt)
    (hstop : stops (slotRead (s.table tid).slots c.pos.toNat) = true) :
    Offers (n + 1) ((s.loadCursor c).enter .probe)
      (exit (some (slotRead (s.table tid).slots c.pos.toNat)) (s.loadCursor c)) := by
  refine (Offers.now (n := n) ?_).tick (h.tick c)
  rw [← h.exit, probeIter]
  exact (if_neg hcnt).trans (if_pos hstop)

theorem Probes.advance_passed (h : Probes s tid stops exit) (hcnt : ¬ (s.table tid).size ≤ c.cnt)
    (hpass : ¬ stops (slotRead (s.table tid).slots c.pos.toNat) = true) :
    advance ((s.loadCursor c).enter .probe) =
      if c.cnt + 1#32 = (s.table tid).size then
        offer (exit none (s.loadCursor (cursorAdvance (s.table tid).size c)))
      else (s.loadCursor (cursorAdvance (s.table tid).size c)).enter .probe := by
  rw [h.tick, probeIter, ← h.exit none (s.loadCursor (cursorAdvance (s.table tid).size c))]
  refine (if_neg hcnt).trans ?_
  dsimp only
  exact if_neg hpass

/-- The state machine probes what the loop does, a position a tick; the tick that counts up to SIZE also ends it. -/
theorem Probes.offers_loop (h : Probes s tid stops exit) {fuel : Nat} (hpos : 0 < fuel)
    (hfuel : c.cnt.toNat + fuel = (s.table tid).size.toNat) :
    Offers fuel ((s.loadCursor c).enter .probe)
      (exit (probeLoop stops (s.table tid).slots (s.table tid).size fuel c).2
        (s.loadCursor (probeLoop stops (s.table tid).slots (s.table tid).size fuel c).1)) := by
  induction fuel generalizing c with
  | zero => exact absurd hpos (Nat.lt_irrefl 0)
  | succ fuel ih =>
    have hlt : c.cnt.toNat < (s.table tid).size.toNat := by omega
    have hcnt : ¬ (s.table tid).size ≤ c.cnt := fun hle => by
      have := BitVec.le_def.1 hle
      omega
    rw [probeLoop]
    by_cases hstop : stops (slotRead (s.table tid).slots c.pos.toNat) = true
    · rw [if_pos hstop]
      exact h.offers_stopped hcnt hstop
    · rw [if_neg hstop]
      have htick := h.advance_passed hcnt hstop
      have hsucc := toNat_succ_of_lt hlt
      by_cases hlast : c.cnt + 1#32 = (s.table tid).size
      · obtain rfl : fuel = 0 := by
          have := congrArg BitVec.toNat hlast
          omega
        rw [if_pos hlast] at htick
        exact (Offers.now rfl).tick htick
      · rw [if_neg hlast] at htick
        have hne : (c.cnt + 1#32).toNat ≠ (s.table tid).size.toNat := fun e => hlast (BitVec.eq_of_toNat_eq e)
        refine (ih (c := cursorAdvance (s.table tid).size c) (by omega) ?_).tick htick
        change (c.cnt + 1#32).toNat + fuel = _
        omega

/-- The whole probe, a table of size 0 taking one tick to be seen. -/
theorem Probes.offers (h : Probes s tid stops exit) (hcnt : s.cur.cnt = 0#32) :
    Offers (max 1 (s.table tid).size.toNat) (s.enter .probe) (runProbe tid stops exit s) := by
  obtain hzero | hpos := Nat.eq_zero_or_pos (s.table tid).size.toNat
  · have hsize : (s.table tid).size ≤ s.cur.cnt := BitVec.le_def.2 (by omega)
    rw [runProbe_of_size_zero hzero]
    exact (h.offers_wrapped (c := s.cur) hsize).mono (le_max_left 1 _)
  · exact (h.offers_loop (c := s.cur) hpos (by rw [hcnt]; simp)).mono (le_max_right 1 _)

end

/-! ## REL (R231) -/

/-- The values queued when the slots below `k` have been read. -/
def queuedBelow (slots : Memory Bucket) (cb : Bool) (k : Nat) : List Word := if cb then occupiedValues slots k else []

theorem occupiedValues_succ (slots : Memory Bucket) (k : Nat) :
    occupiedValues slots (k + 1) = occupiedValues slots k ++ ((slotRead slots k).map Bucket.value).toList := by
  rw [occupiedValues, List.range_succ, List.filterMap_append, List.map_append, occupiedValues]
  cases h : slotRead slots k <;> simp [h]

theorem queuedBelow_succ_of_empty {slots : Memory Bucket} (h : slotRead slots k = none) (cb : Bool) :
    queuedBelow slots cb (k + 1) = queuedBelow slots cb k := by
  simp [queuedBelow, occupiedValues_succ, h]

theorem queuedBelow_succ_of_bucket {slots : Memory Bucket} {b : Bucket} (h : slotRead slots k = some b) (cb : Bool) :
    queuedBelow slots cb (k + 1) = if cb then queuedBelow slots cb k ++ [b.value] else queuedBelow slots cb k := by
  cases cb <;> simp [queuedBelow, occupiedValues_succ, h]

/-- The scan of RELEASE before slot `k`. -/
def State.releasing (s : State) (slots : Memory Bucket) (cb : Bool) (k : Nat) : State :=
  (s.loadPos (BitVec.ofNat 32 k)).loadVals (queuedBelow slots cb k)

theorem State.releasing_load (s : State) (slots : Memory Bucket) (cb : Bool) (k : Nat) (p : Phase) (pos : Word)
    (vals : List Word) :
    (((s.releasing slots cb k).enter p).loadPos pos).loadVals vals = ((s.loadPos pos).loadVals vals).enter p := rfl

theorem offer_releaseExit_enter (tid : TableId) (s : State) (p : Phase) :
    offer (releaseExit tid (s.enter p)) = offer (releaseExit tid s) := rfl

theorem advance_rel {cb : Bool} (hdec : decodeHeader s.opc = .ok (.release tid cb))
    (hk : k < (s.table tid).size.toNat) :
    advance ((s.releasing (s.table tid).slots cb k).enter .rel) =
      if BitVec.ofNat 32 (k + 1) = (s.table tid).size then
        offer (releaseExit tid (s.releasing (s.table tid).slots cb (k + 1)))
      else (s.releasing (s.table tid).slots cb (k + 1)).enter .rel := by
  have hopc : ((s.releasing (s.table tid).slots cb k).enter .rel).opc = s.opc := rfl
  have htable : ((s.releasing (s.table tid).slots cb k).enter .rel).table tid = s.table tid := rfl
  have hcur : ((s.releasing (s.table tid).slots cb k).enter .rel).cur.pos = BitVec.ofNat 32 k := rfl
  have hnat : (BitVec.ofNat 32 k).toNat = k := by
    rw [BitVec.toNat_ofNat, Nat.mod_eq_of_lt (hk.trans (s.table tid).size.isLt)]
  have hvals : ((s.releasing (s.table tid).slots cb k).enter .rel).vals = queuedBelow (s.table tid).slots cb k := rfl
  have hroom : ¬ (s.table tid).size ≤ BitVec.ofNat 32 k := fun hle => by
    have := BitVec.le_def.1 hle
    omega
  rw [advance_of_rel rfl, relTick, hopc, hdec, BitVec.ofNat_add]
  cases hslot : slotRead (s.table tid).slots k with
  | none =>
    simp only [htable, hcur, hnat, hvals, if_neg hroom, hslot, State.releasing_load,
      offer_releaseExit_enter]
    simp only [State.releasing, queuedBelow_succ_of_empty hslot, BitVec.ofNat_add]
  | some b =>
    simp only [htable, hcur, hnat, hvals, if_neg hroom, hslot, State.releasing_load,
      offer_releaseExit_enter]
    simp only [State.releasing, queuedBelow_succ_of_bucket hslot, BitVec.ofNat_add]

/-- The scan reads every slot below SIZE in as many ticks. -/
theorem offers_rel_from {cb : Bool} (hdec : decodeHeader s.opc = .ok (.release tid cb))
    (hk : k < (s.table tid).size.toNat) :
    Offers ((s.table tid).size.toNat - k) ((s.releasing (s.table tid).slots cb k).enter .rel)
      (releaseExit tid (s.releasing (s.table tid).slots cb (s.table tid).size.toNat)) := by
  generalize hn : (s.table tid).size.toNat - k = n
  induction n generalizing k with
  | zero => omega
  | succ n ih =>
    have htick := advance_rel (cb := cb) hdec hk
    by_cases hlast : k + 1 = (s.table tid).size.toNat
    · rw [hlast, BitVec.ofNat_toNat, BitVec.setWidth_eq, if_pos rfl] at htick
      exact (Offers.now (n := n) rfl).tick htick
    · have hmore : BitVec.ofNat 32 (k + 1) ≠ (s.table tid).size := fun h => by
        have := congrArg BitVec.toNat h
        rw [BitVec.toNat_ofNat] at this
        omega
      rw [if_neg hmore] at htick
      exact (ih (by omega) (by omega)).tick htick

theorem releaseEntry_eq_releasing (s : State) (slots : Memory Bucket) (cb : Bool) :
    releaseEntry s = s.releasing slots cb 0 := by
  cases cb <;> rfl

theorem releaseBody_eq_exit (tid : TableId) (cb : Bool) (s : State) :
    releaseBody tid cb s = releaseExit tid (s.releasing (s.table tid).slots cb (s.table tid).size.toNat) := by
  rw [State.releasing, BitVec.ofNat_toNat, BitVec.setWidth_eq]
  rfl

/-- The whole scan, a table of size 0 taking one tick to be seen. -/
theorem offers_rel {cb : Bool} (hdec : decodeHeader s.opc = .ok (.release tid cb)) :
    Offers (max 1 (s.table tid).size.toNat) ((releaseEntry s).enter .rel) (releaseBody tid cb s) := by
  rw [releaseBody_eq_exit, releaseEntry_eq_releasing s (s.table tid).slots cb]
  obtain hzero | hpos := Nat.eq_zero_or_pos (s.table tid).size.toNat
  · rw [hzero]
    have hopc : ((s.releasing (s.table tid).slots cb 0).enter .rel).opc = s.opc := rfl
    refine (Offers.now (n := 0) ?_).tick (advance_of_rel rfl)
    have hend : (s.table tid).size ≤ (0#32 : Word) := BitVec.le_def.2 (Nat.le_of_eq hzero)
    rw [relTick, hopc, hdec]
    exact if_pos hend
  · exact (offers_rel_from hdec hpos).mono (le_max_right 1 _)

end Sys2Proof.Machine
end

-- ==== The controller refines the commands (`spec/43_controller.md` R221, R225 to R232) ====
section
namespace Sys2Proof.Machine

variable {s t u : State} {r : Result} {h : Header} {tid : TableId} {key : Key}

/-! ## What follows the header word (R225, R226) -/

theorem headerDone_of_check_fails {c : Cause} (hdec : decodeHeader u.opc = .ok h) (hcheck : headerCheck h u = some c) :
    headerDone u = offer (raiseFault c u) := by
  simp only [headerDone, hdec, hcheck]

theorem headerDone_of_arg (hdec : decodeHeader u.opc = .ok h) (hcheck : headerCheck h u = none)
    (harg : h.hasArg = true) : headerDone u = u.enter .recvA := by
  simp only [headerDone, hdec, hcheck]
  cases h with
  | create | put | getindex => rfl
  | _ => cases harg

theorem headerDone_of_key (hdec : decodeHeader u.opc = .ok h) (hcheck : headerCheck h u = none)
    (hkey : h.hasKey = true) (harg : h.hasArg = false) : headerDone u = keyEntry h u := by
  simp only [headerDone, hdec, hcheck]
  cases h with
  | hash | get | del => rfl
  | put => cases harg
  | _ => cases hkey

theorem headerDone_of_release {cb : Bool} (hdec : decodeHeader u.opc = .ok (.release tid cb))
    (hcheck : headerCheck (.release tid cb) u = none) : headerDone u = (releaseEntry u).enter .rel := by
  simp only [headerDone, hdec, hcheck]

theorem headerDone_of_len (hdec : decodeHeader u.opc = .ok (.len tid)) : headerDone u = offer (lenBody tid u) := by
  simp only [headerDone, hdec, headerCheck]

theorem headerDone_of_generate (hdec : decodeHeader u.opc = .ok .generate) :
    headerDone u = if u.genDone then offer (generateBody u) else (u.loadGen (genRegsInit, u.ct)).enter .gen := by
  simp only [headerDone, hdec, headerCheck]

/-! ## The exits do not read the phase, and the controller is in RESP after them -/

theorem offer_raiseFault_enter (c : Cause) (s : State) (p : Phase) :
    offer (raiseFault c (s.enter p)) = offer (raiseFault c s) := rfl

theorem offer_lenBody_enter (tid : TableId) (s : State) (p : Phase) :
    offer (lenBody tid (s.enter p)) = offer (lenBody tid s) := by
  cases hl : s.live tid <;> simp only [lenBody, State.enter_live, hl] <;> rfl

theorem offer_getindexExit_enter (tid : TableId) (s : State) (p : Phase) :
    offer (getindexExit tid (s.enter p)) = offer (getindexExit tid s) := by
  cases hr : idxOutOfRange s.arg (s.table tid).size with
  | true => simp only [getindexExit, State.enter_table, State.enter_arg, hr, if_true]; rfl
  | false =>
    cases hb : slotRead (s.table tid).slots s.arg.toNat <;>
      simp only [getindexExit, State.enter_table, State.enter_arg, hr, hb, Bool.false_eq_true, if_false] <;> rfl

/-! ## Keys and arguments -/

/-- The key and its terminator: the three hashes stand in the lanes and the probe begins. -/
theorem advanceMany_key_probe (hdec : decodeHeader s.opc = .ok h) (hh : h = .put tid ∨ h = .get tid ∨ h = .del tid)
    (hwf : keyWf key = true) :
    advanceMany (key.length + 1) (((s.loadLanes lanesInit).enter .key).accept (encodeKey key ++ s.cmd)) =
      ((s.hashKey key).startProbe tid).enter .probe := by
  have hnot : ∀ ch, decodeHeader s.opc ≠ .ok (.hash ch) := fun ch hch => by
    rw [hdec] at hch
    obtain rfl | rfl | rfl := hh <;> cases hch
  have hkeys := advanceMany_lanes hnot hwf lanesInit (0#8 :: s.cmd)
  rw [encodeKey, List.append_assoc, advanceMany_add, List.singleton_append, hkeys, advanceMany_one,
    advance_key_end rfl rfl]
  have hdone : keyDone (((s.loadLanes (lanesRun s.ct key)).enter .key).accept (0#8 :: s.cmd)) =
      (((s.hashKey key).startProbe tid).enter .probe).accept (0#8 :: s.cmd) := by
    have hopc : (((s.loadLanes (lanesRun s.ct key)).enter .key).accept (0#8 :: s.cmd)).opc = s.opc := rfl
    rw [keyDone, hopc, hdec]
    obtain rfl | rfl | rfl := hh <;> rfl
  exact congrArg (State.accept · s.cmd) hdone

/-- The key and its terminator: HASH answers what stands in its lane. -/
theorem advanceMany_key_hash {ch : Channel} (hdec : decodeHeader s.opc = .ok (.hash ch)) (hwf : keyWf key = true) :
    advanceMany (key.length + 1) ((keyEntry (.hash ch) s).accept (encodeKey key ++ s.cmd)) =
      offer (hashBody ch key s) := by
  have hkeys := advanceMany_lane hdec hwf s.lanes laneInit (0#8 :: s.cmd)
  rw [encodeKey, List.append_assoc, advanceMany_add, List.singleton_append, keyEntry, hkeys, advanceMany_one,
    advance_key_end rfl rfl]
  have hdone : keyDone (((s.loadLanes (s.lanes.set ch (laneRun s.ct ch key))).enter .key).accept (0#8 :: s.cmd)) =
      (offer (hashBody ch key s)).accept (0#8 :: s.cmd) := by
    have hopc : (((s.loadLanes (s.lanes.set ch (laneRun s.ct ch key))).enter .key).accept (0#8 :: s.cmd)).opc = s.opc :=
      rfl
    have hlane : (((s.loadLanes (s.lanes.set ch (laneRun s.ct ch key))).enter .key).accept (0#8 :: s.cmd)).lanes.get
        ch = laneRun s.ct ch key := Lanes.get_set _ _ _
    rw [keyDone, hopc, hdec]
    dsimp only
    rw [hlane]
    rfl
  exact congrArg (State.accept · s.cmd) hdone

/-- The argument word of a command that has one. -/
theorem advanceMany_header_arg (hrx : s.rx = 0#2) (a : Word) (bs : List Byte) :
    advanceMany 4 (((s.enter .recvH).enter .recvA).accept (bytesOfWord a ++ bs)) =
      (argDone ((s.loadArg a).enter .recvA)).accept bs :=
  (advanceMany_arg hrx a bs).trans (argDone_accept _ bs)

theorem argDone_of_put (hdec : decodeHeader u.opc = .ok (.put tid)) :
    argDone u = (u.loadLanes lanesInit).enter .key := by
  rw [argDone, hdec]
  rfl

theorem argDone_of_getindex (hdec : decodeHeader u.opc = .ok (.getindex tid)) :
    argDone u = offer (getindexExit tid u) := by
  rw [argDone, hdec]

theorem argDone_of_bad_size {c : Cause} (hdec : decodeHeader u.opc = .ok (.create tid))
    (hsize : sizeCheck u.slotDepth u.arg = some c) : argDone u = offer (raiseFault c u) := by
  simp only [argDone, hdec, hsize]

theorem argDone_of_create (hdec : decodeHeader u.opc = .ok (.create tid))
    (hsize : sizeCheck u.slotDepth u.arg = none) : argDone u = (clearEntry tid u).enter .clear := by
  simp only [argDone, hdec, hsize]

/-! ## The three probes -/

theorem probes_put (hdec : decodeHeader s.opc = .ok (.put tid)) : Probes s tid stopsPut (putExit tid) where
  tick c := by
    have hopc : ((s.loadCursor c).enter .probe).opc = s.opc := rfl
    rw [advance_of_probe rfl, probeTick, hopc, hdec]
  exit found u := offer_putExit_enter tid found u .probe

theorem probes_get (hdec : decodeHeader s.opc = .ok (.get tid)) :
    Probes s tid (stopsLookup s.lanes.a.s1 s.lanes.b.s1) getExit where
  tick c := by
    have hopc : ((s.loadCursor c).enter .probe).opc = s.opc := rfl
    rw [advance_of_probe rfl, probeTick, hopc, hdec]
    rfl
  exit found u := offer_getExit_enter found u .probe

theorem probes_del (hdec : decodeHeader s.opc = .ok (.del tid)) :
    Probes s tid (stopsLookup s.lanes.a.s1 s.lanes.b.s1) (delExit tid) where
  tick c := by
    have hopc : ((s.loadCursor c).enter .probe).opc = s.opc := rfl
    rw [advance_of_probe rfl, probeTick, hopc, hdec]
    rfl
  exit found u := offer_delExit_enter tid found u .probe

/-! ## No command's own part reads the command channel -/

theorem accept_offer (r : Result) (bs : List Byte) : (offer r).accept bs = offer (r.1.accept bs, r.2) := rfl

theorem offer_accept {bs : List Byte} (hcmd : r.1.cmd = bs) : (offer r).accept bs = offer r := by
  rw [← hcmd]
  rfl

theorem generateBody_cmd (s : State) : (generateBody s).1.cmd = s.cmd := by
  rw [generateBody]
  split
  · rfl
  · rw [runGeneration, State.setGenerated_cmd, State.loadGen_cmd]

theorem createBody_cmd (tid : TableId) (size : Word) (s : State) : (createBody tid size s).1.cmd = s.cmd := by
  rw [createBody]
  split <;> rfl

theorem runProbe_cmd {stops : Option Bucket → Bool} {exit : Option (Option Bucket) → State → Result}
    (hexit : ∀ found u, (exit found u).1.cmd = u.cmd) (s : State) : (runProbe tid stops exit s).1.cmd = s.cmd := by
  rw [runProbe, hexit, State.loadCursor_cmd]

theorem putExit_cmd (tid : TableId) (found : Option (Option Bucket)) (s : State) :
    (putExit tid found s).1.cmd = s.cmd := by
  cases found <;> rfl

theorem delExit_cmd (tid : TableId) (found : Option (Option Bucket)) (s : State) :
    (delExit tid found s).1.cmd = s.cmd := by
  obtain _ | _ | _ := found <;> rfl

theorem getindexBody_cmd (tid : TableId) (idx : Word) (s : State) : (getindexBody tid idx s).1.cmd = s.cmd := by
  rw [getindexBody, getindexExit_state, State.loadArg_cmd]

theorem lenBody_cmd (tid : TableId) (s : State) : (lenBody tid s).1.cmd = s.cmd := by
  rw [lenBody_state]

theorem ownPart_cmd (i : Instr) (s : State) : (ownPart i s).1.cmd = s.cmd := by
  cases i with
  | generate => exact generateBody_cmd s
  | hash ch key => rfl
  | create tid size => exact createBody_cmd tid size s
  | put tid value key => exact runProbe_cmd (putExit_cmd tid) _
  | get tid key => exact runProbe_cmd (fun found u => by rw [getExit_state]) _
  | getindex tid idx => exact getindexBody_cmd tid idx s
  | del tid key => exact runProbe_cmd (delExit_cmd tid) _
  | len tid => exact lenBody_cmd tid s
  | release tid cb => simp [ownPart, releaseBody, releaseExit, releaseEntry]

theorem accept_ownPart (i : Instr) (s : State) : ((ownPart i s).1.accept s.cmd, (ownPart i s).2) = ownPart i s := by
  conv_lhs => rw [← ownPart_cmd i s]
  rfl

/-! ## Each command, its header word received -/

/-- With the header word in OPC and its checks passed, the controller offers the response of the command's own part
within the remaining bytes and the loop's iterations (R232). -/
abbrev BodyOffers (i : Instr) (s : State) : Prop :=
  Offers ((encodeBody i).length + loopIterations i s) ((headerDone (s.enter .recvH)).accept (encodeBody i ++ s.cmd))
    (ownPart i s)

theorem bodyOffers_generate (hdec : decodeHeader s.opc = .ok .generate) : BodyOffers .generate s := by
  have hnext := headerDone_of_generate (u := s.enter .recvH) hdec
  cases hg : s.genDone with
  | true =>
    have hg' : (s.enter .recvH).genDone = true := hg
    rw [if_pos hg', generateBody_of_done hg'] at hnext
    refine .now ?_
    rw [hnext, ownPart, generateBody_of_done hg]
    rfl
  | false =>
    have hg' : (s.enter .recvH).genDone ≠ true := by simp [hg]
    rw [if_neg hg'] at hnext
    rw [BodyOffers, hnext]
    exact (offers_gen hg).mono (Nat.le_add_left _ _)

theorem bodyOffers_hash {ch : Channel} (hdec : decodeHeader s.opc = .ok (.hash ch))
    (hcheck : headerCheck (.hash ch) s = none) (hwf : keyWf key = true) : BodyOffers (.hash ch key) s := by
  have hnext := headerDone_of_key (u := s.enter .recvH) hdec hcheck rfl rfl
  have hlength : (encodeBody (.hash ch key)).length = key.length + 1 := List.length_append
  rw [BodyOffers, hnext, hlength]
  exact (Offers.now (n := 0) rfl).after (advanceMany_key_hash hdec hwf)

/-- PUT, GET and DEL from their key on. -/
theorem offers_key_probe {stops : Option Bucket → Bool} {exit : Option (Option Bucket) → State → Result}
    (hdec : decodeHeader s.opc = .ok h) (hh : h = .put tid ∨ h = .get tid ∨ h = .del tid) (hwf : keyWf key = true)
    (hprobe : Probes ((s.hashKey key).startProbe tid) tid stops exit) :
    Offers (key.length + 1 + max 1 (s.table tid).size.toNat)
      (((s.loadLanes lanesInit).enter .key).accept (encodeKey key ++ s.cmd))
      (runProbe tid stops exit ((s.hashKey key).startProbe tid)) :=
  (hprobe.offers rfl).after (advanceMany_key_probe hdec hh hwf)

theorem bodyOffers_get (hdec : decodeHeader s.opc = .ok (.get tid)) (hcheck : headerCheck (.get tid) s = none)
    (hwf : keyWf key = true) : BodyOffers (.get tid key) s := by
  have hnext := headerDone_of_key (u := s.enter .recvH) hdec hcheck rfl rfl
  have hlength : (encodeBody (.get tid key)).length = key.length + 1 := List.length_append
  rw [BodyOffers, hnext, hlength]
  exact offers_key_probe hdec (.inr (.inl rfl)) hwf (probes_get hdec)

theorem bodyOffers_del (hdec : decodeHeader s.opc = .ok (.del tid)) (hcheck : headerCheck (.del tid) s = none)
    (hwf : keyWf key = true) : BodyOffers (.del tid key) s := by
  have hnext := headerDone_of_key (u := s.enter .recvH) hdec hcheck rfl rfl
  have hlength : (encodeBody (.del tid key)).length = key.length + 1 := List.length_append
  rw [BodyOffers, hnext, hlength]
  exact offers_key_probe hdec (.inr (.inr rfl)) hwf (probes_del hdec)

theorem bodyOffers_put (hdec : decodeHeader s.opc = .ok (.put tid)) (hcheck : headerCheck (.put tid) s = none)
    (hrx : s.rx = 0#2) (hwf : keyWf key = true) (value : Word) : BodyOffers (.put tid value key) s := by
  have hnext := headerDone_of_arg (u := s.enter .recvH) hdec hcheck rfl
  have harg := advanceMany_header_arg hrx value (encodeKey key ++ s.cmd)
  have hlength : (encodeBody (.put tid value key)).length = 4 + (key.length + 1) := by
    simp [encodeBody, encodeKey]
  rw [argDone_of_put (u := (s.loadArg value).enter .recvA) hdec] at harg
  rw [BodyOffers, hnext, hlength, encodeBody, List.append_assoc, Nat.add_assoc]
  exact (offers_key_probe (s := s.loadArg value) hdec (.inl rfl) hwf (probes_put hdec)).after harg

theorem bodyOffers_getindex (hdec : decodeHeader s.opc = .ok (.getindex tid))
    (hcheck : headerCheck (.getindex tid) s = none) (hrx : s.rx = 0#2) (idx : Word) :
    BodyOffers (.getindex tid idx) s := by
  have hnext := headerDone_of_arg (u := s.enter .recvH) hdec hcheck rfl
  have harg := advanceMany_header_arg hrx idx s.cmd
  rw [argDone_of_getindex (u := (s.loadArg idx).enter .recvA) hdec, offer_getindexExit_enter] at harg
  rw [BodyOffers, hnext]
  exact (Offers.now (n := 0) (offer_accept (getindexBody_cmd tid idx s))).after harg

theorem bodyOffers_len (hdec : decodeHeader s.opc = .ok (.len tid)) : BodyOffers (.len tid) s := by
  have hnext := headerDone_of_len (u := s.enter .recvH) hdec
  rw [BodyOffers, hnext, offer_lenBody_enter]
  exact .now (offer_accept (lenBody_cmd tid s))

theorem bodyOffers_release {cb : Bool} (hdec : decodeHeader s.opc = .ok (.release tid cb))
    (hcheck : headerCheck (.release tid cb) s = none) : BodyOffers (.release tid cb) s := by
  have hnext := headerDone_of_release (u := s.enter .recvH) hdec hcheck
  rw [BodyOffers, hnext]
  exact (offers_rel hdec).mono (Nat.le_add_left _ _)

/-- CREATE's own part, its scan spelt out. -/
theorem createBody_eq_exit {size : Word} (hlt : tid.toNat < s.ntab) (hsize : sizeCheck s.slotDepth size = none) :
    createBody tid size s =
      createExit tid ((s.loadArg size).clearing tid { s.table tid with size := size, len := 0#32 } size.toNat) := by
  rw [createBody_eq hlt hsize, createExit, State.clearing_table (s := s.loadArg size) hlt, State.clearing,
    State.setTable_loadPos, State.setTable_setTable, BitVec.ofNat_toNat, BitVec.setWidth_eq]
  rfl

theorem bodyOffers_create (hdec : decodeHeader s.opc = .ok (.create tid)) (hcheck : headerCheck (.create tid) s = none)
    (hrx : s.rx = 0#2) (size : Word) : BodyOffers (.create tid size) s := by
  have hnext := headerDone_of_arg (u := s.enter .recvH) hdec hcheck rfl
  have harg := advanceMany_header_arg hrx size s.cmd
  have hlength : (encodeBody (.create tid size)).length = 4 := rfl
  obtain ⟨hlt, -⟩ := (needFree_eq_none tid s).1 hcheck
  rw [BodyOffers, hnext, hlength]
  cases hsize : sizeCheck s.slotDepth size with
  | some c =>
    have hbody : ownPart (.create tid size) s = raiseFault c (s.loadArg size) := by
      rw [ownPart, createBody, State.loadArg_slotDepth, hsize]
    rw [argDone_of_bad_size (u := (s.loadArg size).enter .recvA) hdec hsize] at harg
    rw [hbody]
    exact (Offers.now (offer_accept rfl)).after harg
  | none =>
    obtain ⟨hne, -, -⟩ := (sizeCheck_eq_none _ _).1 hsize
    have hpos : 0 < size.toNat := Nat.pos_of_ne_zero fun h => hne (BitVec.eq_of_toNat_eq h)
    have hentry : ((clearEntry tid ((s.loadArg size).enter .recvA)).enter .clear).accept s.cmd =
        (clearEntry tid (s.loadArg size)).enter .clear := rfl
    have hscan : clearEntry tid (s.loadArg size) =
        (s.loadArg size).clearing tid { s.table tid with size := size, len := 0#32 } 0 :=
      clearEntry_eq_clearing tid (s.loadArg size)
    rw [argDone_of_create (u := (s.loadArg size).enter .recvA) hdec hsize, hentry, hscan] at harg
    rw [ownPart, createBody_eq_exit hlt hsize]
    exact (offers_clear (s := s.loadArg size) hdec hlt hpos).after harg

theorem bodyOffers (i : Instr) (hwf : i.wf = true) (hdec : decodeHeader s.opc = .ok (headerOf i))
    (hcheck : headerCheck (headerOf i) s = none) (hrx : s.rx = 0#2) : BodyOffers i s := by
  cases i with
  | generate => exact bodyOffers_generate hdec
  | hash ch key => exact bodyOffers_hash hdec hcheck hwf
  | create tid size => exact bodyOffers_create hdec hcheck hrx size
  | put tid value key => exact bodyOffers_put hdec hcheck hrx hwf value
  | get tid key => exact bodyOffers_get hdec hcheck hwf
  | getindex tid idx => exact bodyOffers_getindex hdec hcheck hrx idx
  | del tid key => exact bodyOffers_del hdec hcheck hwf
  | len tid => exact bodyOffers_len hdec
  | release tid cb => exact bodyOffers_release hdec hcheck

/-! ## The whole command -/

theorem loopIterations_congr (i : Instr) (ht : t.tables = s.tables) : loopIterations i t = loopIterations i s := by
  cases i <;> simp only [loopIterations, State.table, ht]

theorem advanceMany_packet_header (hs : Ready s) {i : Instr} {rest : List Byte} (hcmd : s.cmd = encode i ++ rest) :
    advanceMany 4 s =
      (headerDone (((s.accept rest).loadHeader (headerOf i)).enter .recvH)).accept (encodeBody i ++ rest) := by
  rw [encode, List.append_assoc] at hcmd
  rw [advanceMany_header hs hcmd, ← headerDone_accept]
  rfl

/-- A response offered within `n` ticks has gone out within its length more, whatever is then on the channel. -/
theorem runsCommand_of_offers {n : Nat} {bs rest : List Byte} (hstep : step s = .next (emit r))
    (hrsp : r.1.rsp = s.rsp) (hoffers : Offers n s (r.1.accept bs, r.2)) (hbs : r.1.fault = false → bs = rest) :
    ∃ n' t, step s = .next t ∧ n' ≤ n + (t.rsp.length - s.rsp.length) ∧
      advanceMany n' s = { t with cmd := (advanceMany n' s).cmd } ∧
      (t.fault = false → (advanceMany n' s).cmd = rest) := by
  obtain ⟨m, hm, hrun⟩ := hoffers
  have hend : advanceMany (m + r.2.bytes.length) s = (emit r).accept bs := by
    rw [advanceMany_add, hrun]
    exact advanceMany_offer (r.1.accept bs, r.2)
  have hlength : (emit r).rsp.length - s.rsp.length = r.2.bytes.length := by
    rw [emit_rsp, hrsp, List.length_append]
    omega
  refine ⟨m + r.2.bytes.length, emit r, hstep, ?_, ?_, fun hf => ?_⟩
  · rw [hlength]
    exact Nat.add_le_add_right hm _
  · rw [hend]
    rfl
  · rw [hend]
    exact hbs hf

/-- Settles O53: four bytes bring the header word, whose checks the command makes in the same order; past them each
command's phases offer the response of its own part. -/
theorem controllerRunsCommand : Obligations.ControllerRunsCommand := by
  intro i rest s hwf hs hcmd
  have hheader := advanceMany_packet_header hs hcmd
  obtain ⟨hp, hf, hrx, -, -⟩ := hs
  have hlength : (encode i).length = 4 + (encodeBody i).length := by rw [encode, List.length_append, bytesOfWord_length]
  have hpacket : fetch s = .packet i rest := by rw [fetch, hcmd, decodePacket_encode hwf]
  have hstep := step_of_packet hp hf hpacket
  have hdec : decodeHeader ((s.accept rest).loadHeader (headerOf i)).opc = .ok (headerOf i) :=
    decodeHeader_encodeHeader (headerOf i)
  have hf' : (s.accept rest).fault = false := hf
  rw [hlength]
  cases hcheck : headerCheck (headerOf i) (s.accept rest) with
  | some c =>
    have hfails := headerDone_of_check_fails (u := ((s.accept rest).loadHeader (headerOf i)).enter .recvH) hdec hcheck
    rw [hfails, offer_raiseFault_enter] at hheader
    rw [exec_of_check_fails i hf' hcheck, ← emit_raiseFault] at hstep
    have hoffers := (Offers.now (n := 0) (accept_offer _ _)).after hheader
    obtain ⟨n, t, ht, hn, hrun⟩ := runsCommand_of_offers hstep rfl hoffers nofun
    exact ⟨n, t, ht, hn.trans (by omega), hrun⟩
  | none =>
    have hbody := (bodyOffers i hwf hdec hcheck hrx).after hheader
    rw [exec_of_checks i hf' hcheck] at hstep
    have hrsp := (ownPart_writesOnly i ((s.accept rest).loadHeader (headerOf i))).rsp
    have hloop : loopIterations i ((s.accept rest).loadHeader (headerOf i)) = loopIterations i s :=
      loopIterations_congr i rfl
    rw [← accept_ownPart, hloop] at hbody
    obtain ⟨n, t, ht, hn, hrun⟩ := runsCommand_of_offers hstep hrsp hbody fun _ => rfl
    exact ⟨n, t, ht, hn.trans (by omega), hrun⟩

end Sys2Proof.Machine
end

-- ==== Every step keeps the invariant (`spec/10_state.md` R42) ====
section
namespace Sys2Proof.Machine

variable {s t : State}

theorem eq_of_decodePacket_illegal {bytes rest : List Byte} {w : Word} {why : IllegalHeader}
    (h : decodePacket bytes = .illegal w why rest) : bytes = bytesOfWord w ++ rest ∧ decodeHeader w = .error why := by
  unfold decodePacket at h
  cases htake : takeWord bytes with
  | none => simp [htake, needPart] at h
  | some taken =>
    obtain ⟨w', rest'⟩ := taken
    rw [takeWord_eq_some htake]
    cases hdec : decodeHeader w' with
    | ok hd =>
      simp only [htake, needPart, hdec] at h
      exact absurd h (decodeBody_ne_illegal _ _ _ _ _)
    | error why' =>
      simp only [htake, needPart, hdec, Fetched.illegal.injEq] at h
      obtain ⟨rfl, rfl, rfl⟩ := h
      exact ⟨rfl, hdec⟩

/-- The invariant does not speak of the command channel. -/
theorem Inv.accept (h : Inv s) (bs : List Byte) : Inv (s.accept bs) :=
  ⟨h.1.of_sameArch ⟨rfl, rfl, rfl, rfl, rfl, rfl, rfl⟩, h.2⟩

theorem Inv.of_accept {bs : List Byte} (h : Inv (s.accept bs)) : Inv s := h.accept s.cmd

theorem Inv.ready (h : Inv s) (hp : s.phase = .idle) : Ready s := by
  obtain ⟨-, hphase⟩ := h
  simp only [PhaseInv, hp] at hphase
  exact ⟨hp, hphase⟩

theorem advance_inv (h : Inv s) : Inv (advance s) := by
  have htick := tick_inv (hostPins s) h
  obtain heq | heq := advance_eq s <;> rw [heq]
  · exact htick
  · exact htick.accept _

theorem advanceMany_inv (n : Nat) (h : Inv s) : Inv (advanceMany n s) := by
  induction n generalizing s with
  | zero => exact h
  | succ n ih => exact ih (advance_inv h)

/-- Settles O51: a command leaves what its phases lead to, tick by tick, but for the bytes on the channel; so does the
rejection of a header; and any other step is a tick. -/
theorem everyStepKeepsInv : Obligations.EveryStepKeepsInv := by
  intro s t hinv ht
  obtain ⟨i, rest, hp, -, hdec, -⟩ | ⟨w, why, rest, hp, -, hdec, -⟩ | rfl := step_cases ht
  · obtain ⟨hwf, hcmd⟩ := eq_encode_of_decodePacket hdec
    obtain ⟨n, t', hstep, -, hrun, -⟩ := controllerRunsCommand i rest s hwf (hinv.ready hp) hcmd
    obtain rfl := Host.Outcome.next.inj (hstep.symm.trans ht)
    have hreached := advanceMany_inv n hinv
    rw [hrun] at hreached
    exact hreached.of_accept (s := t') (bs := (advanceMany n s).cmd)
  · obtain ⟨hcmd, hw⟩ := eq_of_decodePacket_illegal hdec
    obtain ⟨hstep, -⟩ := controllerRejectsIllegalHeader w why rest s (hinv.ready hp) hcmd hw
    obtain rfl := Host.Outcome.next.inj (hstep.symm.trans ht)
    exact advanceMany_inv 12 hinv
  · exact advance_inv hinv

end Sys2Proof.Machine
end

-- ==== The mask-ROM variant (`spec/40_crypttable.md` R139) ====
section
namespace Sys2Proof.Machine

variable {s t : State} {r : Result} {ct ct' : Memory Word} {x : GenRegs × Memory Word} {tid : TableId} {i : Instr}

/-! ## A machine and its hardwired twin -/

/-- The twin of a machine in the variant: its CT is a mask ROM, its generation registers any. -/
def State.withRom (s : State) (x : GenRegs × Memory Word) : State := { s.loadGen x with ctHardwired := true }

/-- The twin of a command's result. -/
def withRomResult (x : GenRegs × Memory Word) (r : Result) : Result := (r.1.withRom x, r.2)

theorem withRom_emit (x : GenRegs × Memory Word) (r : Result) : emit (withRomResult x r) = (emit r).withRom x := rfl

theorem laneRun_of_ctIsConstant (hct : CtIsConstant ct) (hct' : CtIsConstant ct') (c : Channel) (key : Key) :
    laneRun ct c key = laneRun ct' c key :=
  laneRun_congr fun ch _ => (hct _ (ctIndex_lt_ctWords c ch)).trans (hct' _ (ctIndex_lt_ctWords c ch)).symm

theorem lanesRun_of_ctIsConstant (hct : CtIsConstant ct) (hct' : CtIsConstant ct') (key : Key) :
    lanesRun ct key = lanesRun ct' key := by
  simp only [lanesRun_eq, laneRun_of_ctIsConstant hct hct']

/-! ## Each command's own part does the same in both -/

section
variable (x)

theorem putExit_withRom (tid : TableId) (found : Option (Option Bucket)) (s : State) :
    putExit tid found (s.withRom x) = withRomResult x (putExit tid found s) := by
  cases found <;> rfl

theorem getExit_withRom (found : Option (Option Bucket)) (s : State) :
    getExit found (s.withRom x) = withRomResult x (getExit found s) := by
  obtain _ | _ | _ := found <;> rfl

theorem delExit_withRom (tid : TableId) (found : Option (Option Bucket)) (s : State) :
    delExit tid found (s.withRom x) = withRomResult x (delExit tid found s) := by
  obtain _ | _ | _ := found <;> rfl

theorem runProbe_withRom {exit : Option (Option Bucket) → State → Result}
    (hexit : ∀ found u, exit found (u.withRom x) = withRomResult x (exit found u)) (tid : TableId)
    (stops : Option Bucket → Bool) (s : State) :
    runProbe tid stops exit (s.withRom x) = withRomResult x (runProbe tid stops exit s) :=
  hexit _ (s.loadCursor (probeLoop stops (s.table tid).slots (s.table tid).size (s.table tid).size.toNat s.cur).1)

theorem lenBody_withRom (tid : TableId) (s : State) : lenBody tid (s.withRom x) = withRomResult x (lenBody tid s) := by
  have hlive : (s.withRom x).live tid = s.live tid := rfl
  cases hl : s.live tid <;> simp only [lenBody, hlive, hl] <;> rfl

theorem getindexExit_withRom (tid : TableId) (s : State) :
    getindexExit tid (s.withRom x) = withRomResult x (getindexExit tid s) := by
  have htable : (s.withRom x).table tid = s.table tid := rfl
  have harg : (s.withRom x).arg = s.arg := rfl
  cases hr : idxOutOfRange s.arg (s.table tid).size with
  | true => simp only [getindexExit, htable, harg, hr, if_true]; rfl
  | false =>
    cases hb : slotRead (s.table tid).slots s.arg.toNat <;>
      simp only [getindexExit, htable, harg, hr, hb, Bool.false_eq_true, if_false] <;> rfl

theorem createBody_withRom (tid : TableId) (size : Word) (s : State) :
    createBody tid size (s.withRom x) = withRomResult x (createBody tid size s) := by
  have hdepth : (s.withRom x).slotDepth = s.slotDepth := rfl
  cases hsize : sizeCheck s.slotDepth size <;>
    simp only [createBody, State.loadArg_slotDepth, hdepth, hsize] <;> rfl

theorem releaseBody_withRom (tid : TableId) (cb : Bool) (s : State) :
    releaseBody tid cb (s.withRom x) = withRomResult x (releaseBody tid cb s) := by
  simp only [releaseBody_eq]
  rfl

/-- The three hashes are the same over both tables, and the probe begins at the same slot. -/
theorem startProbe_withRom (hct : CtIsConstant s.ct) (hx : CtIsConstant x.2) (key : Key) (tid : TableId) :
    ((s.withRom x).hashKey key).startProbe tid = ((s.hashKey key).startProbe tid).withRom x := by
  have hlanes : (s.withRom x).hashKey key = (s.hashKey key).withRom x :=
    congrArg (fun l => (s.loadLanes l).withRom x) (lanesRun_of_ctIsConstant hx hct key)
  rw [hlanes]
  rfl

end

theorem ownPart_withRom (hg : s.genDone = true) (hct : CtIsConstant s.ct) (hx : CtIsConstant x.2) (i : Instr) :
    ownPart i (s.withRom x) = withRomResult x (ownPart i s) := by
  cases i with
  | generate =>
    rw [ownPart, generateBody_of_done hg, generateBody_of_done (s := s.withRom x) hg]
    rfl
  | hash ch key =>
    have hlane : laneRun (s.withRom x).ct ch key = laneRun s.ct ch key := laneRun_of_ctIsConstant hx hct ch key
    rw [ownPart, hashBody, hlane]
    rfl
  | create tid size => exact createBody_withRom x tid size s
  | put tid value key =>
    have hstart := startProbe_withRom (s := s.loadArg value) x hct hx key tid
    have hput : ownPart (.put tid value key) (s.withRom x) =
      runProbe tid stopsPut (putExit tid) ((((s.loadArg value).withRom x).hashKey key).startProbe tid) := rfl
    rw [hput, hstart, runProbe_withRom x (putExit_withRom x tid)]
    rfl
  | get tid key =>
    rw [ownPart, getBody, startProbe_withRom x hct hx]
    exact runProbe_withRom x (getExit_withRom x) tid _ _
  | getindex tid idx => exact getindexExit_withRom x tid (s.loadArg idx)
  | del tid key =>
    rw [ownPart, delBody, startProbe_withRom x hct hx]
    exact runProbe_withRom x (delExit_withRom x tid) tid _ _
  | len tid => exact lenBody_withRom x tid s
  | release tid cb => exact releaseBody_withRom x tid cb s

/-! ## Runs -/

theorem exec_of_fault_set (i : Instr) (hf : s.fault = true) : exec i s = .fault .dead := by
  rw [exec_eq_runCommand, runCommand_dead _ _ hf]

/-- Both tables hold the constant and GEN_DONE = 1, as GENERATE leaves them. -/
theorem exec_withRom (hg : s.genDone = true) (hct : CtIsConstant s.ct) (hx : CtIsConstant x.2) (i : Instr) :
    (∃ why, exec i s = .fault why ∧ exec i (s.withRom x) = .fault why) ∨
      ∃ t, exec i s = .next t ∧ exec i (s.withRom x) = .next (t.withRom x) ∧ t.genDone = true ∧
        CtIsConstant t.ct := by
  have hcheck : headerCheck (headerOf i) (s.withRom x) = headerCheck (headerOf i) s := headerCheck_congr _ rfl rfl
  cases hf : s.fault with
  | true => exact .inl ⟨_, exec_of_fault_set i hf, exec_of_fault_set (s := s.withRom x) i hf⟩
  | false =>
    cases hc : headerCheck (headerOf i) s with
    | some c =>
      have htwin := exec_of_check_fails (s := s.withRom x) i hf (hcheck.trans hc)
      exact .inr ⟨_, exec_of_check_fails i hf hc, htwin, hg, hct⟩
    | none =>
      obtain ⟨hct', hg', -⟩ := ownPart_sameTable (i := i) (s := s.loadHeader (headerOf i)) (.inr hg)
      have hbody := ownPart_withRom (s := s.loadHeader (headerOf i)) (x := x) hg hct hx i
      have htwin := exec_of_checks (s := s.withRom x) i hf (hcheck.trans hc)
      have hload : (s.withRom x).loadHeader (headerOf i) = (s.loadHeader (headerOf i)).withRom x := rfl
      rw [hload, hbody, withRom_emit] at htwin
      refine .inr ⟨_, exec_of_checks i hf hc, htwin, hg'.trans hg, fun n hn => ?_⟩
      exact (congrArg (ctRead · n) hct').trans (hct n hn)

theorem runCommands_of_next {is : List Instr} (h : exec i s = .next t) :
    runCommands (i :: is) s = runCommands is t := by
  rw [runCommands, h]

theorem runCommands_withRom (hg : s.genDone = true) (hct : CtIsConstant s.ct) (hx : CtIsConstant x.2)
    (is : List Instr) : runCommands is (s.withRom x) = (runCommands is s).map (State.withRom · x) := by
  induction is generalizing s with
  | nil => rfl
  | cons i is ih =>
    obtain ⟨why, hs, ht⟩ | ⟨t, hs, ht, hg', hct'⟩ := exec_withRom hg hct hx i
    · rw [runCommands, runCommands, hs, ht]
      rfl
    · rw [runCommands, runCommands, hs, ht]
      exact ih hg' hct'

/-- The host and the table commands see no difference between the twins. -/
theorem map_withRom (x : GenRegs × Memory Word) (o : Option State) :
    (o.map (State.withRom · x)).map (fun t => (t.rsp, t.tables, t.fault, t.fcause, t.genDone)) =
      o.map fun t => (t.rsp, t.tables, t.fault, t.fcause, t.genDone) := by
  cases o <;> rfl

/-- The generation registers and CT of the variant after reset. -/
def romTable : GenRegs × Memory Word := (⟨0#22, 0#8, 0#3⟩, ctConstant)

theorem romTable_ctIsConstant : CtIsConstant romTable.2 := by
  intro n hn
  rw [romTable, ctRead_ctConstant hn]

/-- The machine of the decided form after the GENERATE that `exists_generated` describes. -/
def State.generatedFirst (p : Config.Params) (x : GenRegs × Memory Word) : State :=
  ((((State.resetWith { p with ctHardwired := false }).loadHeader .generate).loadGen x).setGenerated).answer
    (okResponse 0#32)

/-- After the first GENERATE of each, the variant is the twin of the decided form. -/
theorem generatedFirst_withRom (p : Config.Params) (x : GenRegs × Memory Word) :
    ((State.resetWith { p with ctHardwired := true }).loadHeader .generate).answer (okResponse 0#32) =
      (State.generatedFirst p x).withRom romTable := by
  simp [romTable, State.generatedFirst, State.resetWith, State.loadHeader, State.answer, State.withRom, State.setGenerated,
    State.loadGen]

/-- Settles O56: after GENERATE both tables hold the constant, and nothing a command does depends on more of them. -/
theorem hardwiredTableIsEquivalent : Obligations.HardwiredTableIsEquivalent := by
  intro p is
  have hrom := exec_generate_again (s := State.resetWith { p with ctHardwired := true }) rfl rfl
  obtain ⟨x, hexec, hct, -, -⟩ := exists_generated (s := State.resetWith { p with ctHardwired := false }) rfl rfl
  have hrun := runCommands_withRom (s := State.generatedFirst p x) rfl hct romTable_ctIsConstant is
  have hfirst : exec .generate (State.resetWith { p with ctHardwired := false }) = .next (State.generatedFirst p x) :=
    hexec
  rw [generatedFirst_withRom p x] at hrom
  rw [runCommands_of_next hrom, runCommands_of_next hfirst, hrun, map_withRom]

end Sys2Proof.Machine
end
